-- ==== Sys2Proof/Word.lean ====
section
/-!
DEFINITION. The words and index ranges of the SKV-1620: the bytes that cross its two serial ports and the
numbering of records, bays, cycle positions, converter channels and attention flags (00_scope.md 2.2, R1, R29, R93, R181).
-/
namespace Sys2Proof

/-- One byte of the Host Port or the Bay Link (R184). -/
abbrev Byte := BitVec 8

/-- A value of two bytes on the wire, most significant byte first (R184). -/
abbrev Half := BitVec 16

/-- Records are numbered 0 to 47 (R1). -/
abbrev RecIdx := Fin 48

/-- Bays are numbered 0 to 15. -/
abbrev BayIdx := Fin 16

/-- Cycle positions are numbered 0 to 63 (R54). -/
abbrev Position := Fin 64

/-- Converter channels: 0 to 15 are B0 to B15, 16 is FEED, 17 is TEMP (R93, numbered by R184). -/
abbrev Channel := Fin 18

/-- Attention flags in mask bit order: 0 to 15 the bays, then POOL_FULL, ZONE, CLOCK, TRIP, RECLAIM, EDIT_STALE (R181, R184). -/
abbrev Flag := Fin 22

end Sys2Proof
end

