-- ==== Sys2Proof/Syntax.lean ====
section
/-!
DEFINITION. The commands and events of the SKV-1620: one constructor for each row of spec/opcode_table.json, in the
table's order. Host Port commands carry their argument bytes exactly as the host sent them (R174, R184): a wrong argument
count and an out-of-range argument are commands too, and the part answers them. Bay Link requests carry their fields as
received (R185). Internal events carry what the rule that raises them leaves to the world: the converted raw value, the
reference cycles of a check window, the record or bay the event is about, and, where a rule leaves two orders open within one
row, which of the two it was.
-/
namespace Sys2Proof

/-- One block's share of a period boundary, taken whole by that block (R58, R78, R106, R114, R87, R119). -/
inductive BoundaryPart where
  /-- The boundary step of the bay's record and the bay's graces and limit after it (R58, R71, R78, R84, R85). -/
  | bay (b : BayIdx)
  /-- One count of the strike window of the bay's GRANTED record (R106). -/
  | strikes (b : BayIdx)
  /-- The charge claim of the bay (R114). -/
  | charge (b : BayIdx)
  /-- One count of the close window (R87). -/
  | closeWindow
  /-- One count of the bay's settle interval (R119). -/
  | settle (b : BayIdx)
  deriving DecidableEq, Repr

/-- A CLOCK.RETURN as it reaches the Clock Monitor: its argument bytes, and whether it came together with the end of a check window that was
taken first (R149). -/
structure ReturnArrival where
  args : List Byte
  together : Bool
  deriving DecidableEq, Repr

/-- The end of a conversion: the raw reading of the input (R93), and whether a request that the result raises arrives only after the next
conversion is chosen (R94). -/
structure Reading where
  raw : Int
  late : Bool
  deriving DecidableEq, Repr

/-- A command or event: one row of the opcode table. -/
inductive Instr where
  /-- Power-on or the reset line (R27). -/
  | deviceReset
  | start (args : List Byte)
  | stop (args : List Byte)
  | restart (args : List Byte)
  | holdSet (args : List Byte)
  | holdClear (args : List Byte)
  | resume (args : List Byte)
  | configWrite (args : List Byte)
  | configRead (args : List Byte)
  | ceilingWrite (args : List Byte)
  | bayGate (args : List Byte)
  | alloc (args : List Byte)
  | lookupHandle (args : List Byte)
  | lookupBay (args : List Byte)
  /-- RETIRE whose argument bytes do not name mode IMMEDIATE (R17, R184). -/
  | retireGraceful (args : List Byte)
  /-- RETIRE whose mode byte is IMMEDIATE (R18, R184). -/
  | retireImmediate (args : List Byte)
  | reclaim (args : List Byte)
  | renew (args : List Byte)
  | editOpen (args : List Byte)
  | editPut (args : List Byte)
  | editTaper (args : List Byte)
  | editCommit (args : List Byte)
  | editDrop (args : List Byte)
  | queueRead (args : List Byte)
  | orderRead (args : List Byte)
  | loadRead (args : List Byte)
  | bayRead (args : List Byte)
  | bayUnblock (args : List Byte)
  | calStart (args : List Byte)
  | sampleRequest (args : List Byte)
  | sampleRead (args : List Byte)
  | clockReturn (arrival : ReturnArrival)
  | clockRead (args : List Byte)
  | flagsRead (args : List Byte)
  | flagsClear (args : List Byte)
  | flagsEnable (args : List Byte)
  | identRead (args : List Byte)
  /-- A complete transaction whose command code names no command (R174, R184). -/
  | badCommand (code : Byte) (args : List Byte)
  /-- Select rises before the last argument byte; `sent` is what the host had sent (R174). -/
  | transactionAbort (sent : List Byte)
  | pollSend
  | replyWindowExpiry
  | badFrame
  | foreignFrame
  | reportNone
  | ask (cls : Byte) (requested floor : Half) (lease mask value : Byte)
  | change (handle requested floor : Half)
  | linkRenew (handle : Half)
  | release (handle : Half)
  | admissionPass
  /-- A period boundary; the parts in `later` are left for a later step of the same boundary (log 3). -/
  | periodBoundary (later : List BoundaryPart)
  | leaseEnd (i : RecIdx)
  | taperStepAdvance (i : RecIdx)
  | taperEnd (i : RecIdx)
  | rampTimeout (i : RecIdx)
  | strikeWindowEnd (i : RecIdx)
  | closeWindowEnd
  | settleEnd (b : BayIdx)
  | signalPeriodStart
  /-- The conversion in progress ends with this reading (R93, R97). -/
  | conversionEnd (reading : Reading)
  /-- The check window ends; `cycles` reference cycles arrived in it (R146). -/
  | checkWindowEnd (cycles : Nat)
  | millisecondTick
  deriving DecidableEq, Repr

end Sys2Proof
end

