-- ==== Sys2Proof/Decode.lean ====
section
/-!
DEFINITION. From bytes on the two serial ports to commands. The opcode table gives no row a word, so decodeTableWord
answers none. Beside it stand the two decoders the spec does give: a Host Port transaction (R174, R184) and a frame
received in a reply window (R164, R168, R185), with the CRC of R164 and the bits of a byte on either line (R164, R174).
-/
namespace Sys2Proof

/-- No row of spec/opcode_table.json gives bits, so no word spells a command. -/
def decodeTableWord (_nbits _w : Nat) : Option Instr :=
  none

/-- Two bytes, most significant first (R184). -/
def u16 (hi lo : Byte) : Nat :=
  hi.toNat * 256 + lo.toNat

/-- Two bytes, most significant first, as a value on the wire (R184). -/
def half (hi lo : Byte) : Half :=
  BitVec.ofNat 16 (u16 hi lo)

/-- A value in one byte. -/
def byteOf (n : Nat) : Byte :=
  BitVec.ofNat 8 n

/-- A value in two bytes, most significant first (R184). -/
def be16 (n : Nat) : List Byte :=
  [byteOf (n / 256), byteOf n]

/-- A value in three bytes, most significant first (R184). -/
def be24 (n : Nat) : List Byte :=
  [byteOf (n / 65536), byteOf (n / 256), byteOf n]

/-- A value in four bytes, most significant first (R184). -/
def be32 (n : Nat) : List Byte :=
  [byteOf (n / 16777216), byteOf (n / 65536), byteOf (n / 256), byteOf n]

/-- One bit of the CRC division: polynomial x^16 + x^12 + x^5 + 1 (R164). -/
def crcBit (crc : Half) : Half :=
  if crc.msb then (crc <<< 1) ^^^ 0x1021#16 else crc <<< 1

/-- One byte into the CRC, most significant bit first (R164). -/
def crcByte (crc : Half) (b : Byte) : Half :=
  let start := crc ^^^ (b.zeroExtend 16 <<< 8)
  crcBit (crcBit (crcBit (crcBit (crcBit (crcBit (crcBit (crcBit start)))))))

/-- The check value of a frame: initial value all ones, no final inversion (R164). -/
def crc16 (bytes : List Byte) : Half :=
  bytes.foldl crcByte 0xFFFF#16

/-- The start byte of every frame (R185). -/
def frameStart : Byte := 0xC3#8

/-- The address-and-kind byte: kind above, bay address below (R185). -/
def addressAndKind (kind : Nat) (b : BayIdx) : Byte :=
  byteOf (kind * 16 + b.val)

/-- A whole frame: start byte, address and kind, payload, check bytes high byte first (R164, R185). -/
def frameOf (kind : Nat) (b : BayIdx) (payload : List Byte) : List Byte :=
  let body := addressAndKind kind b :: payload
  frameStart :: (body ++ be16 (crc16 body).toNat)

/-- A byte received by the controller: how many whole or begun microseconds its start bit came after the end of the byte before
it (0 for the first byte), and its value. -/
structure RxByte where
  gap : Nat
  byte : Byte
  deriving DecidableEq, Repr

/-- The payload length of a REPORT, fixed by its request kind code; none for a code that is no request kind (R164, R185). -/
def reportPayloadLength (kind : Byte) : Option Nat :=
  match kind.toNat with
  | 0 => some 1
  | 1 => some 9
  | 2 => some 7
  | 3 => some 3
  | 4 => some 3
  | _ => none

/-- The payload length a frame's address-and-kind byte and first payload byte call for (R164, R185). -/
def payloadLength (addressKind first : Byte) : Option Nat :=
  match addressKind.toNat / 16 with
  | 1 => some 9
  | 2 => reportPayloadLength first
  | _ => none

/-- The request a good REPORT carries (R170, R185). -/
def requestOf (payload : List Byte) : Instr :=
  match payload with
  | [0#8] => .reportNone
  | [1#8, cls, rh, rl, fh, fl, lease, mask, value] => .ask cls (half rh rl) (half fh fl) lease mask value
  | [2#8, hh, hl, rh, rl, fh, fl] => .change (half hh hl) (half rh rl) (half fh fl)
  | [3#8, hh, hl] => .linkRenew (half hh hl)
  | [4#8, hh, hl] => .release (half hh hl)
  | _ => .badFrame

/-- What a frame with start byte, address-and-kind byte and `rest` after it is to a visit of the bay `polled`: its payload and check bytes
stand in `rest`, whatever follows them is discarded (R168), and the frame is good when the check bytes equal its CRC (R164). -/
def frameBody (polled : BayIdx) (addressKind : Byte) (rest : List Byte) : Instr :=
  match payloadLength addressKind (rest.headD 0#8) with
  | none => .badFrame
  | some n =>
    let payload := rest.take n
    let check := (rest.drop n).take 2
    if payload.length = n ∧ check = be16 (crc16 (addressKind :: payload)).toNat then
      if addressKind.toNat / 16 = 2 ∧ addressKind.toNat % 16 = polled.val then requestOf payload else .foreignFrame
    else .badFrame

/-- The bytes of a reception up to the first that came later than one byte-time, 40 µs, after the end of the byte before it (R164). -/
def inTime (rx : List RxByte) : List Byte :=
  (rx.takeWhile fun r => decide (r.gap ≤ 40)).map RxByte.byte

/-- The step a visit of the bay `polled` takes on what arrives in its reply window: silence is an expiry, a bad frame and a foreign frame
are misses, and a good REPORT of the bay is the request it carries (R168). -/
def receive (polled : BayIdx) (rx : List RxByte) : Instr :=
  match rx with
  | [] => .replyWindowExpiry
  | first :: rest =>
    match inTime rest with
    | addressKind :: more => if first.byte = frameStart then frameBody polled addressKind more else .badFrame
    | [] => .badFrame

/-! ### Bits on the two lines -/

/-- What one bit-time of the Bay Link carries while a byte is sent (R164). -/
inductive LineBit where
  | start
  | data (b : Bool)
  | stop
  deriving DecidableEq, Repr

/-- A byte on the Bay Link: a start bit, eight data bits least significant first, and a stop bit, ten bit-times (R164). -/
def lineBits (b : Byte) : List LineBit :=
  .start :: (List.range 8).map (fun k => .data (b.getLsbD k)) ++ [.stop]

/-- The bit-times of the bytes of a frame, one byte after another (R164). -/
def lineOf (bytes : List Byte) : List LineBit :=
  bytes.flatMap lineBits

/-- The byte of eight bits, the first given the least significant. -/
def byteOfBits (bits : List Bool) : Byte :=
  BitVec.ofNat 8 (bits.foldr (fun b n => b.toNat + 2 * n) 0)

/-- The data bit of a bit-time, none for a start and a stop bit. -/
def LineBit.data? : LineBit → Option Bool
  | .data b => some b
  | _ => none

/-- The byte that ten bit-times carry: none unless they are a start bit, eight data bits and a stop bit (R164). -/
def byteOfLine : List LineBit → Option Byte
  | [.start, b0, b1, b2, b3, b4, b5, b6, b7, .stop] =>
    ([b0, b1, b2, b3, b4, b5, b6, b7].mapM LineBit.data?).map byteOfBits
  | _ => none

/-- A byte on the Host Port, most significant bit first (R174). -/
def portBits (b : Byte) : List Bool :=
  (List.range 8).map fun k => b.getMsbD k

/-- The bytes of the bits clocked in while select was low, eight bits to a byte, most significant first; bits short of a byte are none (R174). -/
def portBytes : List Bool → List Byte
  | b7 :: b6 :: b5 :: b4 :: b3 :: b2 :: b1 :: b0 :: rest => byteOfBits [b0, b1, b2, b3, b4, b5, b6, b7] :: portBytes rest
  | _ => []

/-! ### Commands -/

/-- The command a code names, with its argument bytes: codes 1 to 35 in the order of the table of section 11.2 (R184). The bytes do not say
when a CLOCK.RETURN arrives: its operand `together` is no (log 13). -/
def commandOf (code : Byte) (args : List Byte) : Instr :=
  match code.toNat with
  | 1 => .start args
  | 2 => .stop args
  | 3 => .restart args
  | 4 => .holdSet args
  | 5 => .holdClear args
  | 6 => .resume args
  | 7 => .configWrite args
  | 8 => .configRead args
  | 9 => .ceilingWrite args
  | 10 => .bayGate args
  | 11 => .alloc args
  | 12 => .lookupHandle args
  | 13 => .lookupBay args
  | 14 =>
    match args with
    | [_, _, 1#8] => .retireImmediate args
    | _ => .retireGraceful args
  | 15 => .reclaim args
  | 16 => .renew args
  | 17 => .editOpen args
  | 18 => .editPut args
  | 19 => .editTaper args
  | 20 => .editCommit args
  | 21 => .editDrop args
  | 22 => .queueRead args
  | 23 => .orderRead args
  | 24 => .loadRead args
  | 25 => .bayRead args
  | 26 => .bayUnblock args
  | 27 => .calStart args
  | 28 => .sampleRequest args
  | 29 => .sampleRead args
  | 30 => .clockReturn { args := args, together := false }
  | 31 => .clockRead args
  | 32 => .flagsRead args
  | 33 => .flagsClear args
  | 34 => .flagsEnable args
  | 35 => .identRead args
  | _ => .badCommand code args

/-- The step of a Host Port transaction: the bytes the host sent while select was low. The command is taken when the last argument
byte arrives; bytes clocked after it only clock the reply out; without it the command is discarded (R174). -/
def transact (sent : List Byte) : Instr :=
  match sent with
  | code :: count :: rest =>
    if count.toNat ≤ rest.length then commandOf code (rest.take count.toNat) else .transactionAbort sent
  | _ => .transactionAbort sent

/-- The step of a Host Port transaction: the bits the host clocked in while select was low (R174). -/
def transactBits (bits : List Bool) : Instr :=
  transact (portBytes bits)

end Sys2Proof
end

