-- ==== Sys2Proof/Config.lean ====
section
/-!
DEFINITION. What an implementation of the SKV-1620 fixes and the manual does not: nothing. The model holds no free constant; what a
rule leaves to the world is an operand of the event it is about (Syntax.lean). The eighteen configuration parameters of R161 are
registers that the host writes; they stand in Machine/State.lean.
-/
end

