-- ==== Sys2Proof/Machine/State.lean ====
section
/-!
DEFINITION. The state of the SKV-1620: every record, table, list, counter, mark and register the spec gives the part, grouped
by the block that owns it (00_scope.md 1.3), and the machine right after device reset.
-/
namespace Sys2Proof.Machine

/-- What stops the machine. The part has no fault that stops it: every command is answered and every event has an effect, so the type is
empty and no step ends in a fault. -/
inductive Fault where
  deriving DecidableEq, Repr

/-- Why a command has no meaning here. -/
inductive Refusal where
  /-- Raised by exec's arm of a command that has no meaning yet; safe: the run stops. No arm does so in this model. -/
  | notModelled (mnemonic : String)
  deriving DecidableEq, Repr

/-! ### Names of states, causes and reasons (R186) -/

/-- Who created a record (R1). -/
inductive Origin where
  | link
  | port
  deriving DecidableEq, Repr

/-- Why a record was not admitted on the last admission pass (R1, R37, R41). -/
inductive WaitReason where
  | none
  | budget
  | closeLimit
  | blocked
  | calibrating
  | gated
  | hold
  deriving DecidableEq, Repr

/-- Why a record's life is ending or has ended (R1). -/
inductive EndCause where
  | released
  | withdrawn
  | leaseEnd
  | taperEnd
  | overdraw
  | retiredByPort
  | reclaim
  | trip
  deriving DecidableEq, Repr

/-- The reply codes of the Host Port (R175). -/
inductive ReplyCode where
  | ok
  | badCommand
  | badArg
  | badHandle
  | state
  | busy
  | noRecord
  | bayTaken
  | stale
  deriving DecidableEq, Repr

/-- The answer codes of the Bay Link (R171); NONE is the empty slot. -/
inductive AnswerCode where
  | accepted
  | already
  | noRecord
  | badArg
  | badHandle
  | expired
  | closed
  | refused
  deriving DecidableEq, Repr

/-- Whether a bay answered its latest visits (R165). -/
inductive Presence where
  | absent
  | present
  deriving DecidableEq, Repr

/-- The host's per-bay setting (R160). -/
inductive Gate where
  | opened
  | shut
  deriving DecidableEq, Repr

/-- A bay's enable line; closed makes the contactor conduct (R72). -/
inductive Enable where
  | opened
  | closed
  deriving DecidableEq, Repr

/-- Why a bay is blocked (R72). -/
inductive BlockCause where
  | none
  | stray
  | forcedOpen
  deriving DecidableEq, Repr

/-- Phase of a bay's calibration (R116). -/
inductive CalState where
  | idle
  | settling
  | sampling
  deriving DecidableEq, Repr

/-- Outcome of a bay's latest calibration to end (R116). -/
inductive CalResult where
  | none
  | pass
  | notQuiet
  | outOfRange
  | aborted
  deriving DecidableEq, Repr

/-- The operating state of the part (R154). -/
inductive OpState where
  | standby
  | running
  | hold
  | trip
  deriving DecidableEq, Repr

/-- The thermal zone (R128). -/
inductive Zone where
  | normal
  | warm
  | hot
  | critical
  deriving DecidableEq, Repr

/-- Which source supplies the time base, and why (R145). -/
inductive ClockState where
  | starting
  | reference
  | fallback
  deriving DecidableEq, Repr

/-- The state of one attention flag (R181). -/
inductive FlagState where
  | lowered
  | raisedUnseen
  | raisedSeen
  deriving DecidableEq, Repr

/-! ### Record Pool -/

/-- One step of a taper: a current and a duration in periods (R66). -/
structure TaperStep where
  current : Nat
  periods : Nat
  deriving DecidableEq, Repr

/-- The fields every record but a FREE one holds: its terms and its account (R2, the first group). -/
structure Terms where
  bay : BayIdx
  origin : Origin
  cls : Fin 4
  requested : Nat
  floor : Nat
  mask : BitVec 6
  value : BitVec 6
  leaseLength : Nat
  taper : List TaperStep
  charge : Nat
  residue : Nat
  deriving DecidableEq, Repr

/-- The taper state of a GRANTED record with a non-empty taper list (R66); `unopened` is the step-open mark. -/
structure TaperState where
  step : Nat
  left : Nat
  unopened : Bool
  deriving DecidableEq, Repr

/-- The fields a GRANTED record holds beside its terms (R2). -/
structure Grant where
  active : Nat
  staged : Nat
  leaseLeft : Option Nat
  taperState : Option TaperState
  strikes : Nat
  strikeWindowLeft : Nat
  deriving DecidableEq, Repr

/-- The state of a record with exactly the fields R2 makes present in it. In WAITING and SPENT both grants are 0, in RETIRING the
staged grant is 0 (R2), so these are not stored. -/
inductive Life where
  | free
  | waiting (t : Terms) (reason : WaitReason)
  | granted (t : Terms) (g : Grant)
  | retiring (t : Terms) (active : Nat) (cause : EndCause) (rampLeft : Nat)
  | spent (t : Terms) (cause : EndCause) (forced : Bool)
  deriving DecidableEq, Repr

/-- An allocation record; its index is its place in the pool (R1). -/
structure Record where
  generation : Fin 1024
  life : Life
  deriving DecidableEq, Repr

/-- A copy of a record's editable fields (R26). -/
structure EditCopy where
  cls : Fin 4
  requested : Nat
  floor : Nat
  mask : BitVec 6
  value : BitVec 6
  leaseLength : Nat
  taper : List TaperStep
  deriving DecidableEq, Repr

/-- Which editable fields a change carries (R24, R26). -/
structure ChangedFields where
  cls : Bool
  requested : Bool
  floor : Bool
  leaseLength : Bool
  pattern : Bool
  taper : Bool
  deriving DecidableEq, Repr

/-- An OPEN edit window (R26). -/
structure EditWindow where
  handle : Nat
  copy : EditCopy
  changed : ChangedFields
  stale : Bool
  deriving DecidableEq, Repr

/-- The Record Pool: the records, the free list, and the edit window, none when CLOSED. The spent set is the set of SPENT records (R9). -/
structure Pool where
  records : Vector Record 48
  freeList : List RecIdx
  edit : Option EditWindow
  deriving DecidableEq, Repr

/-! ### Allocator -/

/-- The Allocator's state (R29, R33, R35, R38, R134, R154). -/
structure Allocator where
  loads : Vector Nat 64
  waitQueue : List RecIdx
  grantOrder : List RecIdx
  ceiling : Nat
  effCeiling : Nat
  opState : OpState
  holdPort : Bool
  holdClock : Bool
  reclaiming : Bool
  /-- A trigger of R39 has been taken and its admission pass has not yet run (log 4). -/
  passDue : Bool
  deriving DecidableEq, Repr

/-! ### Period Timer -/

/-- The Period Timer (R54), and the latest boundary: the parts that some block has still to take (log 3), and for each bay the handle of the
record that was GRANTED or RETIRING when the boundary arrived, none where there was none (R10, R58). -/
structure Timer where
  running : Bool
  ms : Nat
  position : Position
  outstanding : List BoundaryPart
  found : Vector (Option Nat) 16
  deriving DecidableEq, Repr

/-! ### Bay Table -/

/-- A bay's event set (R181). -/
structure EventSet where
  admitted : Bool
  spent : Bool
  calDone : Bool
  blocked : Bool
  deriving DecidableEq, Repr

/-- The content of a filled answer slot (R165, R171); 65535 is "no handle". -/
structure Answer where
  code : AnswerCode
  handle : Nat
  deriving DecidableEq, Repr

/-- One entry of the Bay Table; its fields belong to the blocks of the rules named. -/
structure Bay where
  /-- The bay's live record (R7). -/
  record : Option RecIdx
  /-- The handle of the bay's latest record to enter SPENT; none is 65535 (R9). -/
  lastSpent : Option Nat
  events : EventSet
  presence : Presence
  missCount : Nat
  answer : Option Answer
  gate : Gate
  enable : Enable
  limit : Nat
  stagedDuty : Nat
  inEffectDuty : Nat
  decreaseGrace : Option Nat
  strayGrace : Bool
  closeCount : Nat
  blockCause : BlockCause
  latestSample : Nat
  periodSum : Nat
  periodCount : Nat
  /-- The handle the period sum counts for; none is 65535 (R101). -/
  sumOwner : Option Nat
  calState : CalState
  lastResult : CalResult
  offset : Int
  settleLeft : Nat
  samplesTaken : Nat
  sampleSum : Int
  deriving DecidableEq, Repr

/-! ### Sampler -/

/-- The kinds of conversion (R94). -/
inductive ConvKind where
  | calibration
  | confirm
  | port
  | scan
  deriving DecidableEq, Repr

/-- A conversion: its kind and its channel. -/
structure Conversion where
  kind : ConvKind
  channel : Channel
  deriving DecidableEq, Repr

/-- A PORT sample holder (R98). -/
structure Holder where
  ready : Bool
  result : Nat
  deriving DecidableEq, Repr

/-- The Sampler (R94 to R98). The pending triggered requests are three sets of channels, kept in ascending order without repeats.
`current` is none only after device reset, when the first conversion, a scan of the scan channel, is about to begin (R95, log 8). -/
structure Sampler where
  scanChannel : Channel
  current : Option Conversion
  calRequests : List Channel
  confirmRequests : List Channel
  portRequests : List Channel
  holders : Vector Holder 18
  deriving DecidableEq, Repr

/-! ### Thermal Monitor -/

/-- The Thermal Monitor; a filtered code of none is EMPTY (R128). -/
structure Thermal where
  filtered : Option Nat
  zone : Zone
  deriving DecidableEq, Repr

/-! ### Clock Monitor -/

/-- The Clock Monitor (R145), the mark that the check window in progress was in progress at CLOCK.RETURN (R149, log 13), the mark that no
signal period has begun since the latest check window ended (R149, log 13), and the remainder of the internal oscillator's milliseconds
(R152). -/
structure Clock where
  state : ClockState
  windowTicks : Nat
  windowCycles : Nat
  latestCount : Nat
  countValid : Bool
  returnPending : Bool
  goodWindows : Nat
  windowPredatesReturn : Bool
  windowFresh : Bool
  msRemainder : Nat
  deriving DecidableEq, Repr

/-! ### Bay Link Controller -/

/-- The phase of a visit (R165). -/
inductive VisitPhase where
  | none
  | poll
  | reply
  deriving DecidableEq, Repr

/-- The poll schedule (R165), and the bytes of the POLL last sent on the line (R167, R185). -/
structure Link where
  round : Fin 8
  position : BayIdx
  phase : VisitPhase
  lastPoll : Option (List Byte)
  deriving DecidableEq, Repr

/-! ### Attention Unit and Host Port -/

/-- The 22 attention flags and their enables in mask bit order (R181, R184); the event sets stand in the Bay Table. -/
structure Attention where
  flags : Vector FlagState 22
  enables : BitVec 22
  deriving DecidableEq, Repr

/-- The reply of a command: its code and body (R174). -/
structure Reply where
  code : ReplyCode
  body : List Byte
  deriving DecidableEq, Repr

/-! ### Configuration -/

/-- The configuration parameters, in the order of the table of R161. -/
structure Params where
  periodLength : Nat
  tolerance : Nat
  strikeLimit : Nat
  strikeWindow : Nat
  closeLimit : Nat
  closeWindow : Nat
  retireTimeout : Nat
  restThreshold : Nat
  strayThreshold : Nat
  feedMargin : Nat
  /-- Bit c stands for class c (R184). -/
  squeezeClasses : BitVec 4
  warmCode : Nat
  hotCode : Nat
  criticalCode : Nat
  hysteresis : Nat
  calSettle : Nat
  bandLow : Nat
  bandHigh : Nat
  deriving DecidableEq, Repr

/-! ### The whole part -/

/-- The state of the SKV-1620 and the queue of commands and events waiting to be taken. -/
structure State where
  pool : Pool
  alloc : Allocator
  timer : Timer
  bays : Vector Bay 16
  /-- Boundaries left before the present close window ends (R72). -/
  closeWindowLeft : Nat
  sampler : Sampler
  thermal : Thermal
  clock : Clock
  link : Link
  attention : Attention
  params : Params
  /-- The reply of the Host Port command last taken, none when there is none (R174). -/
  reply : Option Reply
  /-- The waiting commands, first in, first out. -/
  pending : List Instr
  deriving DecidableEq, Repr

/-! ### Device reset -/

/-- An empty event set. -/
def EventSet.empty : EventSet :=
  { admitted := false, spent := false, calDone := false, blocked := false }

/-- The device reset values of the parameters (R161). -/
def Params.reset : Params :=
  { periodLength := 100, tolerance := 10, strikeLimit := 3, strikeWindow := 50, closeLimit := 6, closeWindow := 600, retireTimeout := 20,
    restThreshold := 5, strayThreshold := 10, feedMargin := 50, squeezeClasses := 0b1000#4, warmCode := 25, hotCode := 30,
    criticalCode := 35, hysteresis := 2, calSettle := 3, bandLow := 30000, bandHigh := 32500 }

/-- A bay's entry after device reset (R7, R9, R90, R101, R116, R160, R165, R181). -/
def Bay.reset : Bay :=
  { record := none, lastSpent := none, events := EventSet.empty, presence := .absent, missCount := 0, answer := none, gate := .opened,
    enable := .opened, limit := 0, stagedDuty := 0, inEffectDuty := 0, decreaseGrace := none, strayGrace := false, closeCount := 0,
    blockCause := .none, latestSample := 0, periodSum := 0, periodCount := 0, sumOwner := none, calState := .idle, lastResult := .none,
    offset := 0, settleLeft := 0, samplesTaken := 0, sampleSum := 0 }

/-- The Record Pool after device reset (R27). -/
def Pool.reset : Pool :=
  { records := Vector.replicate 48 { generation := 0, life := .free }, freeList := List.finRange 48, edit := none }

/-- The Allocator after device reset (R32, R33, R35, R38, R134, R154). -/
def Allocator.reset : Allocator :=
  { loads := Vector.replicate 64 0, waitQueue := [], grantOrder := [], ceiling := 0, effCeiling := 0, opState := .standby,
    holdPort := false, holdClock := false, reclaiming := false, passDue := false }

/-- The Period Timer after device reset (R54). -/
def Timer.reset : Timer :=
  { running := false, ms := 0, position := 0, outstanding := [], found := Vector.replicate 16 none }

/-- The Sampler after device reset (R95, R100). -/
def Sampler.reset : Sampler :=
  { scanChannel := 0, current := none, calRequests := [], confirmRequests := [], portRequests := [],
    holders := Vector.replicate 18 { ready := false, result := 0 } }

/-- The Clock Monitor after device reset (R145, R152). -/
def Clock.reset : Clock :=
  { state := .starting, windowTicks := 0, windowCycles := 0, latestCount := 0, countValid := false, returnPending := false,
    goodWindows := 0, windowPredatesReturn := false, windowFresh := false, msRemainder := 0 }

/-- The poll schedule after device reset (R165). -/
def Link.reset : Link :=
  { round := 0, position := 0, phase := .none, lastPoll := none }

/-- The Attention Unit after device reset: every flag LOWERED with enable yes (R181). -/
def Attention.reset : Attention :=
  { flags := Vector.replicate 22 .lowered, enables := BitVec.allOnes 22 }

/-- The part right after device reset, with nothing waiting. -/
def State.reset : State :=
  { pool := Pool.reset, alloc := Allocator.reset, timer := Timer.reset, bays := Vector.replicate 16 Bay.reset, closeWindowLeft := 600,
    sampler := Sampler.reset, thermal := { filtered := none, zone := .normal }, clock := Clock.reset, link := Link.reset,
    attention := Attention.reset, params := Params.reset, reply := none, pending := [] }

end Sys2Proof.Machine
end

