-- ==== Sys2Proof/Machine/Access.lean ====
section
/-!
DEFINITION. The one home of each table: reading and writing a record, a bay entry, a load, an attention flag and the Host Port reply.
-/
namespace Sys2Proof.Machine

/-! ### Numbering -/

/-- All records in ascending order (R1). -/
def allRecords : List RecIdx := List.finRange 48

/-- All bays in ascending order. -/
def allBays : List BayIdx := List.finRange 16

/-- All cycle positions in ascending order (R54). -/
def allPositions : List Position := List.finRange 64

/-- All converter channels in ascending order (R94). -/
def allChannels : List Channel := List.finRange 18

/-! ### Records -/

/-- The record at an index. -/
def State.record (s : State) (i : RecIdx) : Record :=
  s.pool.records.get i

/-- The life of the record at an index. -/
def State.life (s : State) (i : RecIdx) : Life :=
  (s.record i).life

/-- Replace one record. -/
def State.setRecord (s : State) (i : RecIdx) (r : Record) : State :=
  { s with pool := { s.pool with records := s.pool.records.set i.val r i.isLt } }

/-- Replace the life of one record; its generation stays. -/
def State.setLife (s : State) (i : RecIdx) (l : Life) : State :=
  s.setRecord i { s.record i with life := l }

/-- The terms of a record that is not FREE (R2). -/
def Life.terms? : Life → Option Terms
  | .free => none
  | .waiting t _ => some t
  | .granted t _ => some t
  | .retiring t _ _ _ => some t
  | .spent t _ _ => some t

/-- GRANTED or RETIRING: the states in which a record holds load and its bay's enable is closed (R29, R75). -/
def Life.holdsLoad : Life → Bool
  | .granted _ _ => true
  | .retiring _ _ _ _ => true
  | _ => false

/-- A handle: generation × 64 + index (R3). -/
def handleOf (generation : Fin 1024) (i : RecIdx) : Nat :=
  generation.val * 64 + i.val

/-- The present handle of a record (R3). -/
def State.handle (s : State) (i : RecIdx) : Nat :=
  handleOf (s.record i).generation i

/-- "No handle" (R3). -/
def noHandle : Nat := 65535

/-- The record a handle names: its index is below 48 and its generation is the record's present one (R3, R4, R5). -/
def State.resolve (s : State) (h : Nat) : Option RecIdx :=
  if hi : h % 64 < 48 then
    if (s.record ⟨h % 64, hi⟩).generation.val = h / 64 then some ⟨h % 64, hi⟩ else none
  else none

/-! ### Bays -/

/-- The Bay Table entry of a bay. -/
def State.bay (s : State) (b : BayIdx) : Bay :=
  s.bays.get b

/-- Replace one Bay Table entry. -/
def State.setBay (s : State) (b : BayIdx) (x : Bay) : State :=
  { s with bays := s.bays.set b.val x b.isLt }

/-- Change one Bay Table entry. -/
def State.modBay (s : State) (b : BayIdx) (f : Bay → Bay) : State :=
  s.setBay b (f (s.bay b))

/-- Change every Bay Table entry in the same way. -/
def State.modBays (s : State) (f : Bay → Bay) : State :=
  { s with bays := Vector.ofFn fun b => f (s.bay b) }

/-- The life of the record a bay's entry names (R7). -/
def State.bayLife (s : State) (b : BayIdx) : Option Life :=
  (s.bay b).record.map s.life

/-! ### Loads -/

/-- The load of a cycle position (R29). -/
def State.load (s : State) (p : Position) : Nat :=
  s.alloc.loads.get p

/-! ### Host Port -/

/-- Fix the reply of the command being taken (R174). -/
def State.answer (s : State) (code : ReplyCode) (body : List Byte) : State :=
  { s with reply := some { code := code, body := body } }

/-- Reply OK with length 0 (R184). -/
def State.ok (s : State) : State :=
  s.answer .ok []

/-- A reply other than OK has length 0 and its command changes nothing else (R175, R184). -/
def State.refuse (s : State) (code : ReplyCode) : State :=
  s.answer code []

end Sys2Proof.Machine
end

