-- ==== Sys2Proof/Machine/Flags.lean ====
section
/-!
DEFINITION. The Attention Unit: raising, seeing and lowering flags, the bay events, the attention line (R181 to R183), and the
marking of an overtaken edit window (R179).
-/
namespace Sys2Proof.Machine

/-- The flag of a bay (R181). -/
def bayFlag (b : BayIdx) : Flag :=
  b.castLE (by decide)

/-- The global flags in mask bit order (R184). -/
def flagPoolFull : Flag := 16
def flagZone : Flag := 17
def flagClock : Flag := 18
def flagTrip : Flag := 19
def flagReclaim : Flag := 20
def flagEditStale : Flag := 21

/-- A raise puts the flag in RAISED_UNSEEN from any state (R181). -/
def State.raise (s : State) (f : Flag) : State :=
  { s with attention := { s.attention with flags := s.attention.flags.set f.val .raisedUnseen f.isLt } }

/-- The bay events (R181). -/
inductive BayEvent where
  | admitted
  | spent
  | calDone
  | blocked
  deriving DecidableEq, Repr

/-- Add an event to an event set, in which each event appears at most once (R181). -/
def EventSet.add (e : EventSet) : BayEvent → EventSet
  | .admitted => { e with admitted := true }
  | .spent => { e with spent := true }
  | .calDone => { e with calDone := true }
  | .blocked => { e with blocked := true }

/-- Add an event to a bay's event set, which raises the bay's flag, even for an event the set already holds (R181). -/
def State.addEvent (s : State) (b : BayIdx) (e : BayEvent) : State :=
  (s.modBay b fun y => { y with events := y.events.add e }).raise (bayFlag b)

/-- A flag counts as raised in RAISED_UNSEEN and RAISED_SEEN (R183). -/
def FlagState.isRaised : FlagState → Bool
  | .lowered => false
  | .raisedUnseen => true
  | .raisedSeen => true

/-- The attention line: asserted while some flag is raised and enabled (R183). -/
def State.attentionLine (s : State) : Bool :=
  (List.finRange 22).any fun f => (s.attention.flags.get f).isRaised && s.attention.enables.getLsbD f.val

/-- FLAGS.READ marks a flag seen (R182). -/
def FlagState.see : FlagState → FlagState
  | .raisedUnseen => .raisedSeen
  | f => f

/-- Every RAISED_UNSEEN flag becomes RAISED_SEEN (R182). -/
def Attention.see (a : Attention) : Attention :=
  { a with flags := Vector.ofFn fun f => (a.flags.get f).see }

/-- Whether FLAGS.CLEAR with this mask lowers the flag: in the mask and RAISED_SEEN (R182). -/
def Attention.lowers (a : Attention) (mask : Nat) (f : Flag) : Bool :=
  mask.testBit f.val && a.flags.get f == .raisedSeen

/-- The flags of the mask that are RAISED_SEEN become LOWERED (R182). -/
def Attention.clear (a : Attention) (mask : Nat) : Attention :=
  { a with flags := Vector.ofFn fun f => if a.lowers mask f then .lowered else a.flags.get f }

/-- FLAGS.CLEAR: lowering a bay flag empties that bay's event set (R182). -/
def State.clearFlags (s : State) (mask : Nat) : State :=
  { s with
    attention := s.attention.clear mask
    bays := Vector.ofFn fun b => if s.attention.lowers mask (bayFlag b) then { s.bay b with events := EventSet.empty } else s.bay b }

/-- A change reaches a record: an OPEN window on it whose STALE mark is clear becomes STALE and EDIT_STALE is raised; further changes
raise nothing more (R179). -/
def State.markStale (s : State) (i : RecIdx) : State :=
  match s.pool.edit with
  | some w =>
    if w.handle % 64 = i.val ∧ w.stale = false then
      { s with pool := { s.pool with edit := some { w with stale := true } } }.raise flagEditStale
    else s
  | none => s

end Sys2Proof.Machine
end

