-- ==== Sys2Proof/Machine/Operands.lean ====
section
/-!
DEFINITION. The byte forms of the Host Port and the Bay Link: the argument forms of every command, the numeric codes of R186, the reply
bodies of R184 and the POLL frame of R185.
-/
namespace Sys2Proof.Machine

/-! ### Numeric codes (R186) -/

def Origin.code : Origin → Nat
  | .link => 0
  | .port => 1

def WaitReason.code : WaitReason → Nat
  | .none => 0
  | .budget => 1
  | .closeLimit => 2
  | .blocked => 3
  | .calibrating => 4
  | .gated => 5
  | .hold => 6

def EndCause.code : EndCause → Nat
  | .released => 1
  | .withdrawn => 2
  | .leaseEnd => 3
  | .taperEnd => 4
  | .overdraw => 5
  | .retiredByPort => 6
  | .reclaim => 7
  | .trip => 8

def ReplyCode.code : ReplyCode → Nat
  | .ok => 0
  | .badCommand => 1
  | .badArg => 2
  | .badHandle => 3
  | .state => 4
  | .busy => 5
  | .noRecord => 6
  | .bayTaken => 7
  | .stale => 8

def AnswerCode.code : AnswerCode → Nat
  | .accepted => 1
  | .already => 2
  | .noRecord => 3
  | .badArg => 4
  | .badHandle => 5
  | .expired => 6
  | .closed => 7
  | .refused => 8

def Presence.code : Presence → Nat
  | .absent => 0
  | .present => 1

def Gate.code : Gate → Nat
  | .opened => 0
  | .shut => 1

def Enable.code : Enable → Nat
  | .opened => 0
  | .closed => 1

def BlockCause.code : BlockCause → Nat
  | .none => 0
  | .stray => 1
  | .forcedOpen => 2

def CalState.code : CalState → Nat
  | .idle => 0
  | .settling => 1
  | .sampling => 2

def CalResult.code : CalResult → Nat
  | .none => 0
  | .pass => 1
  | .notQuiet => 2
  | .outOfRange => 3
  | .aborted => 4

def OpState.code : OpState → Nat
  | .standby => 0
  | .running => 1
  | .hold => 2
  | .trip => 3

def Zone.code : Zone → Nat
  | .normal => 0
  | .warm => 1
  | .hot => 2
  | .critical => 3

def ClockState.code : ClockState → Nat
  | .starting => 0
  | .reference => 1
  | .fallback => 2

def FlagState.code : FlagState → Nat
  | .lowered => 0
  | .raisedUnseen => 1
  | .raisedSeen => 2

/-- Record state code (R186). -/
def Life.code : Life → Nat
  | .free => 0
  | .waiting _ _ => 1
  | .granted _ _ => 2
  | .retiring _ _ _ _ => 3
  | .spent _ _ _ => 4

/-- A yes/no value: 1 for yes, 0 for no (R184). -/
def yesNo (b : Bool) : Nat :=
  if b then 1 else 0

/-- An event set in one byte: bit 0 ADMITTED, bit 1 SPENT, bit 2 CAL_DONE, bit 3 BLOCKED (R184). -/
def EventSet.code (e : EventSet) : Nat :=
  yesNo e.admitted + 2 * yesNo e.spent + 4 * yesNo e.calDone + 8 * yesNo e.blocked

/-! ### Argument forms (R184) -/

/-- A command with no arguments; any other count is answered BAD_ARG (R184). -/
def State.noArgs (s : State) (args : List Byte) (f : State → State) : State :=
  match args with
  | [] => f s
  | _ => s.refuse .badArg

/-- A command with one handle of two bytes (R184). -/
def State.handleArg (s : State) (args : List Byte) (f : Nat → State → State) : State :=
  match args with
  | [hi, lo] => f (u16 hi lo) s
  | _ => s.refuse .badArg

/-- A command with one bay number, 0 to 15 (R184). -/
def State.bayArg (s : State) (args : List Byte) (f : BayIdx → State → State) : State :=
  match args with
  | [b] => if h : b.toNat < 16 then f ⟨b.toNat, h⟩ s else s.refuse .badArg
  | _ => s.refuse .badArg

/-- A command with one channel, 0 to 17 (R184). -/
def State.channelArg (s : State) (args : List Byte) (f : Channel → State → State) : State :=
  match args with
  | [c] => if h : c.toNat < 18 then f ⟨c.toNat, h⟩ s else s.refuse .badArg
  | _ => s.refuse .badArg

/-- A command with a 22-bit flag mask in three bytes; bits 22 and 23 are ignored (R184). -/
def State.flagMaskArg (s : State) (args : List Byte) (f : Nat → State → State) : State :=
  match args with
  | [b2, b1, b0] => f ((b2.toNat * 65536 + b1.toNat * 256 + b0.toNat) % 2 ^ 22) s
  | _ => s.refuse .badArg

/-- The checks of R4 after a command's other arguments: a handle that names no record or another life is BAD_HANDLE. -/
def State.withHandle (s : State) (h : Nat) (f : RecIdx → State → State) : State :=
  match s.resolve h with
  | some i => f i s
  | none => s.refuse .badHandle

/-- What an ALLOC or an ASK asks for (R11, R12). -/
structure Request where
  cls : Fin 4
  requested : Nat
  floor : Nat
  leaseLength : Nat
  mask : BitVec 6
  value : BitVec 6
  deriving DecidableEq, Repr

/-- A pattern as the part accepts it: mask and value at most 63 and no value bit outside the mask (R1, R11). -/
def patternOk (mask value : Nat) : Bool :=
  decide (mask ≤ 63) && decide (value ≤ 63) && ((BitVec.ofNat 6 value &&& ~~~(BitVec.ofNat 6 mask)) == 0#6)

/-- The range checks ALLOC and ASK share: class, requested, floor and pattern (R11, R12). -/
def requestOf? (cls requested floor leaseLength mask value : Nat) : Option Request :=
  if h : cls < 4 then
    if 1 ≤ requested ∧ requested ≤ 630 ∧ floor ≤ requested ∧ patternOk mask value then
      some { cls := ⟨cls, h⟩, requested := requested, floor := floor, leaseLength := leaseLength,
             mask := BitVec.ofNat 6 mask, value := BitVec.ofNat 6 value }
    else none
  else none

/-- One field written into the edit copy, or none for an unknown field or a value out of its range (R178, R184). -/
def EditCopy.put (c : EditCopy) (field hi lo : Byte) : Option EditCopy :=
  let v := u16 hi lo
  match field.toNat with
  | 0 => if h : v < 4 then some { c with cls := ⟨v, h⟩ } else none
  | 1 => if 1 ≤ v ∧ v ≤ 630 then some { c with requested := v } else none
  | 2 => if v ≤ 630 then some { c with floor := v } else none
  | 3 => if v ≤ 255 then some { c with leaseLength := v } else none
  | 4 =>
    if hi.toNat ≤ 63 ∧ lo.toNat ≤ 63 then some { c with mask := BitVec.ofNat 6 hi.toNat, value := BitVec.ofNat 6 lo.toNat }
    else none
  | _ => none

/-- The changed-field set with one more field (R178). -/
def ChangedFields.put (c : ChangedFields) (field : Byte) : ChangedFields :=
  match field.toNat with
  | 0 => { c with cls := true }
  | 1 => { c with requested := true }
  | 2 => { c with floor := true }
  | 3 => { c with leaseLength := true }
  | 4 => { c with pattern := true }
  | _ => c

/-- The steps of an EDIT.TAPER: current 0 to 630 in two bytes and duration 1 to 255 (R178, R184). -/
def taperSteps? : List Byte → Option (List TaperStep)
  | [] => some []
  | hi :: lo :: d :: rest =>
    if u16 hi lo ≤ 630 ∧ 1 ≤ d.toNat then
      (taperSteps? rest).map fun l => { current := u16 hi lo, periods := d.toNat } :: l
    else none
  | _ => none

/-- The argument bytes of an EDIT.TAPER: the step count n, 0 to 8, and n steps; the argument count is 1 + 3n (R178, R184). -/
def taperArg? (args : List Byte) : Option (List TaperStep) :=
  match args with
  | [] => none
  | n :: rest => if n.toNat ≤ 8 ∧ rest.length = 3 * n.toNat then taperSteps? rest else none

/-! ### Reply bodies (R184) -/

/-- The bytes the host clocks out: status, length, body, and 0 past the end (R174). -/
def Reply.byteAt (r : Reply) (n : Nat) : Byte :=
  (byteOf r.code.code :: byteOf r.body.length :: r.body).getD n 0#8

/-- A taper list: the step count, then current (2) and duration of each step (R184). -/
def taperImage (l : List TaperStep) : List Byte :=
  byteOf l.length :: l.flatMap fun st => be16 st.current ++ [byteOf st.periods]

/-- Terms whose every byte reads 0, for the image of a record that holds none (R184). -/
def Terms.absent : Terms :=
  { bay := 0, origin := .link, cls := 0, requested := 0, floor := 0, mask := 0, value := 0, leaseLength := 0, taper := [], charge := 0,
    residue := 0 }

/-- The presence word of the LOOKUP image, one bit for each optional group of R2 (R184). -/
def Life.presenceWord : Life → Nat
  | .free => 0
  | .waiting _ _ => 0x13
  | .granted _ g => 0x23 + 4 * yesNo g.leaseLeft.isSome + 8 * yesNo g.taperState.isSome
  | .retiring _ _ _ _ => 0x143
  | .spent _ _ _ => 0xC3

/-- The optional fields of the LOOKUP image after the terms, an absent field reading 0 (R184). -/
structure LifeView where
  active : Nat := 0
  staged : Nat := 0
  leaseLeft : Nat := 0
  taperStep : Nat := 0
  taperLeft : Nat := 0
  waitReason : Nat := 0
  strikes : Nat := 0
  strikeWindowLeft : Nat := 0
  endCause : Nat := 0
  forced : Nat := 0
  rampLeft : Nat := 0
  deriving DecidableEq, Repr

/-- The optional fields a record's state makes present (R2). -/
def Life.view : Life → LifeView
  | .free => {}
  | .waiting _ r => { waitReason := r.code }
  | .granted _ g =>
    { active := g.active, staged := g.staged, leaseLeft := g.leaseLeft.getD 0, taperStep := (g.taperState.map TaperState.step).getD 0,
      taperLeft := (g.taperState.map TaperState.left).getD 0, strikes := g.strikes, strikeWindowLeft := g.strikeWindowLeft }
  | .retiring _ a c n => { active := a, endCause := c.code, rampLeft := n }
  | .spent _ c f => { endCause := c.code, forced := yesNo f }

/-- The LOOKUP image of a record (R23, R184). -/
def recordImage (h : Nat) (l : Life) : List Byte :=
  let t := l.terms?.getD Terms.absent
  let v := l.view
  be16 h ++ [byteOf l.code] ++ be16 l.presenceWord ++ [byteOf t.bay.val, byteOf t.origin.code, byteOf t.cls.val]
    ++ be16 t.requested ++ be16 t.floor ++ [byteOf t.mask.toNat, byteOf t.value.toNat] ++ be16 v.active ++ be16 v.staged
    ++ [byteOf t.leaseLength, byteOf v.leaseLeft, byteOf v.taperStep, byteOf v.taperLeft, byteOf v.waitReason, byteOf v.strikes,
        byteOf v.strikeWindowLeft]
    ++ be32 t.charge ++ [byteOf v.endCause, byteOf v.forced, byteOf v.rampLeft] ++ taperImage t.taper

/-- The body of EDIT.OPEN: the copy (R177, R184). -/
def EditCopy.image (c : EditCopy) : List Byte :=
  [byteOf c.cls.val] ++ be16 c.requested ++ be16 c.floor ++ [byteOf c.mask.toNat, byteOf c.value.toNat, byteOf c.leaseLength]
    ++ taperImage c.taper

/-- The body of BAY.READ (R176, R184); the handle of an empty answer slot reads 65535 (log 18). -/
def State.bayImage (s : State) (b : BayIdx) : List Byte :=
  let y := s.bay b
  [byteOf b.val] ++ be16 ((y.record.map s.handle).getD noHandle) ++ be16 (y.lastSpent.getD noHandle)
    ++ [byteOf y.events.code, byteOf y.presence.code, byteOf y.missCount, byteOf ((y.answer.map fun a => a.code.code).getD 0)]
    ++ be16 ((y.answer.map Answer.handle).getD noHandle)
    ++ [byteOf y.gate.code, byteOf y.enable.code, byteOf y.blockCause.code] ++ be16 y.limit ++ be16 y.inEffectDuty
    ++ be16 (y.decreaseGrace.getD 0) ++ [byteOf y.closeCount, byteOf y.calState.code, byteOf y.lastResult.code, BitVec.ofInt 8 y.offset]
    ++ be16 y.latestSample

/-- One entry of QUEUE.READ: handle, bay, class, requested, floor, wait reason (R51, R184). -/
def State.queueEntry (s : State) (i : RecIdx) : List Byte :=
  let t := (s.life i).terms?.getD Terms.absent
  be16 (s.handle i) ++ [byteOf t.bay.val, byteOf t.cls.val] ++ be16 t.requested ++ be16 t.floor ++ [byteOf (s.life i).view.waitReason]

/-- The body of QUEUE.READ (R51, R184). -/
def State.queueImage (s : State) : List Byte :=
  byteOf s.alloc.waitQueue.length :: s.alloc.waitQueue.flatMap s.queueEntry

/-- One entry of ORDER.READ: handle, bay, class, floor, requested, staged, active (R52, R184). -/
def State.orderEntry (s : State) (i : RecIdx) : List Byte :=
  let t := (s.life i).terms?.getD Terms.absent
  be16 (s.handle i) ++ [byteOf t.bay.val, byteOf t.cls.val] ++ be16 t.floor ++ be16 t.requested
    ++ be16 (s.life i).view.staged ++ be16 (s.life i).view.active

/-- The body of ORDER.READ (R52, R184). -/
def State.orderImage (s : State) : List Byte :=
  byteOf s.alloc.grantOrder.length :: s.alloc.grantOrder.flatMap s.orderEntry

/-- The zone factor in percent (R33, R130). -/
def Zone.factor : Zone → Nat
  | .normal => 100
  | .warm => 75
  | .hot => 50
  | .critical => 0

/-- The body of LOAD.READ (R53, R184). -/
def State.loadImage (s : State) : List Byte :=
  allPositions.flatMap (fun p => be16 (s.load p)) ++ be16 s.alloc.ceiling ++ [byteOf s.thermal.zone.factor] ++ be16 s.alloc.effCeiling
    ++ [byteOf (yesNo s.alloc.reclaiming)]

/-- The parameters as numbers, in the order of R161. -/
def Params.values (p : Params) : List Nat :=
  [p.periodLength, p.tolerance, p.strikeLimit, p.strikeWindow, p.closeLimit, p.closeWindow, p.retireTimeout, p.restThreshold,
   p.strayThreshold, p.feedMargin, p.squeezeClasses.toNat, p.warmCode, p.hotCode, p.criticalCode, p.hysteresis, p.calSettle, p.bandLow,
   p.bandHigh]

/-- The body of CONFIG.READ (R163, R184); an EMPTY filtered code reads 255. -/
def State.configImage (s : State) : List Byte :=
  s.params.values.flatMap be16 ++ be16 s.alloc.ceiling
    ++ [byteOf s.alloc.opState.code, byteOf (yesNo s.alloc.holdPort), byteOf (yesNo s.alloc.holdClock),
        byteOf (s.thermal.filtered.getD 255), byteOf s.thermal.zone.code, byteOf (yesNo s.timer.running)]
    ++ be16 s.timer.ms ++ [byteOf s.timer.position.val] ++ be16 s.closeWindowLeft

/-- The body of CLOCK.READ (R153, R184). -/
def State.clockImage (s : State) : List Byte :=
  [byteOf s.clock.state.code] ++ be16 s.clock.latestCount
    ++ [byteOf (yesNo s.clock.countValid), byteOf (yesNo s.clock.returnPending), byteOf s.clock.goodWindows,
        byteOf (yesNo s.alloc.holdClock)]

/-- The body of FLAGS.READ: the 22 flag states, the enables, the 16 event sets (R182, R184). -/
def State.flagsImage (s : State) : List Byte :=
  (List.finRange 22).map (fun f => byteOf (s.attention.flags.get f).code) ++ be24 s.attention.enables.toNat
    ++ allBays.map (fun b => byteOf (s.bay b).events.code)

/-- The body of SAMPLE.READ (R99, R184). -/
def Holder.image (h : Holder) : List Byte :=
  byteOf (yesNo h.ready) :: be16 h.result

/-- The body of IDENT.READ: vendor 0x5E20, part 1620, revision 2.0 (R176, R184). -/
def identImage : List Byte :=
  be16 0x5E20 ++ be16 1620 ++ [0x20#8]

/-! ### The POLL frame (R167, R185) -/

/-- The bay mode of a POLL: BLOCKED, else CAL while calibrating, else NORMAL (R167, R186). -/
def Bay.mode (y : Bay) : Nat :=
  if y.blockCause ≠ .none then 2 else if y.calState ≠ .idle then 1 else 0

/-- The record state code of a POLL: the live record's; with none, SPENT while the bay has a last spent handle, else NONE (R167). -/
def State.pollStateCode (s : State) (b : BayIdx) : Nat :=
  match (s.bay b).record with
  | some i => (s.life i).code
  | none => if (s.bay b).lastSpent.isSome then 4 else 0

/-- The nine payload bytes of a POLL (R167, R185); an answer slot of NONE is sent as code 0 with handle 65535. -/
def State.pollPayload (s : State) (b : BayIdx) : List Byte :=
  let y := s.bay b
  [byteOf y.mode] ++ be16 ((y.record.map s.handle).getD noHandle) ++ [byteOf (s.pollStateCode b)] ++ be16 y.limit
    ++ [byteOf ((y.answer.map fun a => a.code.code).getD 0)] ++ be16 ((y.answer.map Answer.handle).getD noHandle)

/-- The POLL to a bay as it goes on the line (R167, R185). -/
def State.pollFrame (s : State) (b : BayIdx) : List Byte :=
  frameOf 1 b (s.pollPayload b)

end Sys2Proof.Machine
end

