-- ==== Sys2Proof/Machine/Attention.lean ====
section
/-!
DEFINITION. The flag commands (R182) and the two transactions that take no command (R174).
-/
namespace Sys2Proof.Machine

/-- FLAGS.READ: the reply shows the flags as they stand, and every RAISED_UNSEEN flag becomes RAISED_SEEN in the same step (R182). -/
def execFlagsRead (args : List Byte) (s : State) : Host.Outcome State Fault Refusal :=
  .next (s.noArgs args fun s => { s with attention := s.attention.see }.answer .ok s.flagsImage)

/-- FLAGS.CLEAR (R182). -/
def execFlagsClear (args : List Byte) (s : State) : Host.Outcome State Fault Refusal :=
  .next (s.flagMaskArg args fun m s => (s.clearFlags m).ok)

/-- FLAGS.ENABLE (R182). -/
def execFlagsEnable (args : List Byte) (s : State) : Host.Outcome State Fault Refusal :=
  .next (s.flagMaskArg args fun m s => { s with attention := { s.attention with enables := BitVec.ofNat 22 m } }.ok)

/-- BAD_COMMAND: a code that names no command is answered BAD_COMMAND, whatever its arguments, with no effect (R174, R175). -/
def execBadCommand (_code : Byte) (_args : List Byte) (s : State) : Host.Outcome State Fault Refusal :=
  .next (s.refuse .badCommand)

/-- TRANSACTION_ABORT: the command is discarded and nothing is taken, so there is no reply (R174). -/
def execTransactionAbort (_sent : List Byte) (s : State) : Host.Outcome State Fault Refusal :=
  .next { s with reply := none }

end Sys2Proof.Machine
end

