-- ==== Sys2Proof/Machine/Ops.lean ====
section
/-!
DEFINITION. The operations the commands share: load changes and reclaiming (R29, R30, R134, R140), admission pass triggers (R39), bay
outputs (R73, R74, R79, R82, R84), the record transitions (R13 to R22), the reclaim step (R135 to R138), zone and ceiling changes
(R130 to R133), the trip (R141, R142), the hold reasons (R154) and the field access checks (R24, R25).
-/
namespace Sys2Proof.Machine

/-! ### Patterns and contributions -/

/-- Whether a record with these terms is on in a cycle position (R1): the position ANDed with the mask equals the value. -/
def Terms.onAt (t : Terms) (p : Position) : Bool :=
  (BitVec.ofNat 6 p.val &&& t.mask) == t.value

/-- A record's contribution to the load: the larger of its active and staged grant (R29). -/
def Life.contribution : Life → Nat
  | .granted _ g => max g.active g.staged
  | .retiring _ a _ _ => a
  | _ => 0

/-- What a record adds to the load of one position (R29). -/
def Life.loadAt (l : Life) (p : Position) : Nat :=
  match l.terms? with
  | some t => if t.onAt p then l.contribution else 0
  | none => 0

/-! ### Triggers, reclaiming and load changes -/

/-- An admission pass trigger: kept for the pass that answers it when the state is RUNNING outside reclaiming, dropped otherwise (R39). -/
def State.trigger (s : State) : State :=
  if s.alloc.opState = .running ∧ s.alloc.reclaiming = false then { s with alloc := { s.alloc with passDue := true } } else s

/-- Every load is at or below the effective ceiling (R134). -/
def Allocator.fits (a : Allocator) : Bool :=
  a.loads.toList.all fun l => decide (l ≤ a.effCeiling)

/-- The evaluation of the reclaiming condition after a change that may end it (R134): at the first that finds every load at or below the
effective ceiling reclaiming ends, RECLAIM is raised, and the end is a trigger (R140). -/
def State.evaluate (s : State) : State :=
  if s.alloc.reclaiming = true ∧ s.alloc.fits = true then
    ({ s with alloc := { s.alloc with reclaiming := false } }.raise flagReclaim).trigger
  else s

/-- The load of each position in which the record is on changes by the change in its contribution (R30). -/
def Allocator.shift (a : Allocator) (t : Terms) (before after : Nat) : Allocator :=
  { a with loads := Vector.ofFn fun p => if t.onAt p then a.loads.get p + after - before else a.loads.get p }

/-- A reported change of a record's contribution: the loads follow, the condition is evaluated, and a fall is a load decrease, which is a
trigger (R30, R39, R134). -/
def State.contribute (s : State) (t : Terms) (before after : Nat) : State :=
  if before = after then s
  else
    let s1 := { s with alloc := s.alloc.shift t before after }.evaluate
    if after < before then s1.trigger else s1

/-- A record takes a new life of the same pattern, and its load follows (R29, R30). -/
def State.become (s : State) (i : RecIdx) (l : Life) : State :=
  match l.terms? with
  | some t => (s.setLife i l).contribute t (s.life i).contribution l.contribution
  | none => s.setLife i l

/-! ### Bay outputs -/

/-- The duty of a limit value in per mille (R82). -/
def duty (limit : Nat) : Nat :=
  limit * 1000 / 630

/-- The bay takes a limit value; a change recomputes the staged duty, and a fall under a CLOSED enable begins decrease grace, unless one is
present, with the limit in force before it (R78, R79, R82, R84). -/
def Bay.setLimit (y : Bay) (new : Nat) : Bay :=
  if new = y.limit then y
  else
    { y with
      limit := new
      stagedDuty := duty new
      decreaseGrace := if new < y.limit ∧ y.enable = .closed then some (y.decreaseGrace.getD y.limit) else y.decreaseGrace }

/-- The enable closes at admission: one closing more, stray grace no, and the in-effect duty 0 with the limit value and the staged duty, which
are 0 while the enable is OPEN, so that the line stays low (R73, R83, log 24). -/
def Bay.closeEnable (y : Bay) : Bay :=
  { y with enable := .closed, closeCount := y.closeCount + 1, strayGrace := false, inEffectDuty := 0 }

/-- The enable of a CLOSED bay opens: limit and staged duty 0, decrease grace absent, stray grace yes; an OPEN bay is left as it is (R74). -/
def Bay.openEnable (y : Bay) : Bay :=
  if y.enable = .closed then
    { y with enable := .opened, limit := 0, stagedDuty := 0, decreaseGrace := none, strayGrace := true }
  else y

/-- The first thing a boundary does to a bay's outputs: both graces end (R84, R85). -/
def Bay.endGraces (y : Bay) : Bay :=
  { y with decreaseGrace := none, strayGrace := false }

/-- The limit in force: the decrease-grace limit while present, else the limit value (R84, R101). -/
def Bay.limitInForce (y : Bay) : Nat :=
  y.decreaseGrace.getD y.limit

/-- The limit line of a bay in microsecond `us` of a signal period: high for the first in-effect-duty microseconds while CLOSED (R81). -/
def Bay.limitLine (y : Bay) (us : Fin 1000) : Bool :=
  y.enable == .closed && decide (us.val < y.inEffectDuty)

/-- A block cause is set on a bay: it replaces the cause held and adds BLOCKED (R76, R109). -/
def State.blockBay (s : State) (b : BayIdx) (c : BlockCause) : State :=
  (s.modBay b fun y => { y with blockCause := c }).addEvent b .blocked

/-! ### The wait queue -/

/-- A WAITING record's life with another wait reason; any other life is unchanged (R37). -/
def Life.withReason (l : Life) (r : WaitReason) : Life :=
  match l with
  | .waiting t _ => .waiting t r
  | _ => l

/-- Set the wait reason of a WAITING record (R37). -/
def State.setWaitReason (s : State) (i : RecIdx) (r : WaitReason) : State :=
  s.setLife i ((s.life i).withReason r)

/-- Every WAITING record takes a wait reason (R37). -/
def State.setAllWaitReasons (s : State) (r : WaitReason) : State :=
  { s with pool := { s.pool with
    records := Vector.ofFn fun i => { s.record i with life := (s.life i).withReason r } } }

/-- Insert after the last entry for which `p` holds, at the head when there is none (R35). -/
def insertAfterLast (p : RecIdx → Bool) (i : RecIdx) : List RecIdx → List RecIdx
  | [] => [i]
  | x :: xs => if (x :: xs).any p then x :: insertAfterLast p i xs else i :: x :: xs

/-- The class of a record; a FREE record has none and reads 0. -/
def State.classOf (s : State) (i : RecIdx) : Fin 4 :=
  ((s.life i).terms?.map Terms.cls).getD 0

/-- A record of class `c` enters the wait queue after the last entry of its class or higher (R35, R36). -/
def State.enqueue (s : State) (i : RecIdx) (c : Fin 4) : State :=
  { s with alloc := { s.alloc with waitQueue := insertAfterLast (fun j => decide (c ≤ s.classOf j)) i s.alloc.waitQueue } }

/-- The wait reason of a record that enters the queue (R13). -/
def State.entryReason (s : State) (otherwise : WaitReason) : WaitReason :=
  if s.alloc.opState ≠ .running then .hold else if s.alloc.reclaiming then .budget else otherwise

/-- A record leaves whichever of the two lists it is on (R36, R38). -/
def State.unlist (s : State) (i : RecIdx) : State :=
  { s with alloc := { s.alloc with waitQueue := s.alloc.waitQueue.filter (· ≠ i), grantOrder := s.alloc.grantOrder.filter (· ≠ i) } }

/-! ### Record transitions -/

/-- Creation: the head of the free list becomes WAITING with these terms, the bay's entry names it, and it enters the wait queue, which
is a trigger (R13, R35, R36). -/
def State.create (s : State) (i : RecIdx) (rest : List RecIdx) (t : Terms) : State :=
  let s1 := { s with pool := { s.pool with freeList := rest } }.setLife i (.waiting t (s.entryReason .none))
  ((s1.modBay t.bay fun y => { y with record := some i }).enqueue i t.cls).trigger

/-- The terms of a new record (R13). -/
def Request.terms (r : Request) (b : BayIdx) (o : Origin) : Terms :=
  { bay := b, origin := o, cls := r.cls, requested := r.requested, floor := r.floor, mask := r.mask, value := r.value,
    leaseLength := r.leaseLength, taper := [], charge := 0, residue := 0 }

/-- What entry into SPENT does beside the record and its load: the record leaves its list, the bay's enable opens, its entry names no record
and its last spent handle is the record's, SPENT is added, and a window on the record is overtaken (R19). -/
def State.leaveBay (s : State) (i : RecIdx) (b : BayIdx) : State :=
  (((s.unlist i).modBay b fun y => { y.openEnable with record := none, lastSpent := some (s.handle i) }).addEvent b .spent).markStale i

/-- Entry into SPENT of a WAITING, GRANTED or RETIRING record (R19); a claim on any other record is dropped (R10). -/
def State.enterSpent (s : State) (i : RecIdx) (cause : EndCause) (forced : Bool) : State :=
  match s.life i with
  | .waiting t _ => (s.become i (.spent t cause forced)).leaveBay i t.bay
  | .granted t _ => (s.become i (.spent t cause forced)).leaveBay i t.bay
  | .retiring t _ _ _ => (s.become i (.spent t cause forced)).leaveBay i t.bay
  | .free => s
  | .spent _ _ _ => s

/-- Entry of a GRANTED record into RETIRING (R15); a claim on any other record is dropped (R10). -/
def State.enterRetiring (s : State) (i : RecIdx) (cause : EndCause) : State :=
  match s.life i with
  | .granted t g =>
    (((s.become i (.retiring t g.active cause s.params.retireTimeout)).unlist i).modBay t.bay fun y => y.setLimit 0).markStale i
  | _ => s

/-- A ramp that reaches rest: a RETIRING record enters SPENT with its own end cause, not forced (R20). -/
def State.rampEnd (s : State) (i : RecIdx) : State :=
  match s.life i with
  | .retiring _ _ c _ => s.enterSpent i c false
  | _ => s

/-- A ramp cut short: SPENT, forced, and the bay blocked with FORCED_OPEN (R21, R76). -/
def State.rampCut (s : State) (i : RecIdx) : State :=
  match s.life i with
  | .retiring t _ c _ => (s.enterSpent i c true).blockBay t.bay .forcedOpen
  | _ => s

/-- A GRANTED record's staged grant becomes `v`; its load follows (R30, R47, R50, R137). -/
def State.stage (s : State) (i : RecIdx) (v : Nat) : State :=
  match s.life i with
  | .granted t g => s.become i (.granted t { g with staged := v })
  | _ => s

/-! ### Room -/

/-- The least headroom under the effective ceiling over the positions in which the terms are on, against a load of each position; a
negative value counts as 0 (R34). -/
def roomUnder (ceiling : Nat) (t : Terms) (load : Position → Nat) : Nat :=
  allPositions.foldl (fun m p => if t.onAt p then min m (ceiling - load p) else m) ceiling

/-- A record's room (R34). -/
def State.room (s : State) (t : Terms) : Nat :=
  roomUnder s.alloc.effCeiling t s.load

/-! ### Reclaiming -/

/-- The GRANTED records, class ascending and, within a class, youngest first by the grant order list read from the tail (R45, R137). -/
def State.victims (s : State) : List RecIdx :=
  [0, 1, 2, 3].flatMap fun (c : Fin 4) => s.alloc.grantOrder.reverse.filter fun i => s.classOf i = c

/-- What a record counts in the reclaim measure of a position (R135). -/
def Life.measureAt (l : Life) (p : Position) : Nat :=
  match l with
  | .granted t g => if t.onAt p then g.staged else 0
  | .retiring t a c _ => if c ≠ .reclaim ∧ t.onAt p then a else 0
  | _ => 0

/-- The reclaim measure of a position (R135). -/
def State.measure (s : State) (p : Position) : Nat :=
  (s.pool.records.toList.map fun r => r.life.measureAt p).sum

/-- The positions that do not fit: their reclaim measure exceeds the effective ceiling (R135). -/
def State.unfit (s : State) : List Position :=
  allPositions.filter fun p => decide (s.alloc.effCeiling < s.measure p)

/-- One record of the lowering walk: lowered to its floor when its staged grant is above it and it is on in a position that does not fit;
the lowering overtakes a window on it (R137). -/
def State.reclaimLower (s : State) (i : RecIdx) : State :=
  match s.life i with
  | .granted t g =>
    if t.floor < g.staged ∧ s.unfit.any t.onAt = true then (s.stage i t.floor).markStale i else s
  | _ => s

/-- One record of the revoke walk: revoked when its staged grant is above 0 and it is on in a position that does not fit (R138). -/
def State.reclaimRevoke (s : State) (i : RecIdx) : State :=
  match s.life i with
  | .granted t g => if 0 < g.staged ∧ s.unfit.any t.onAt = true then s.enterRetiring i .reclaim else s
  | _ => s

/-- A reclaim step: the lowering walk, then the revoke walk. A walk that has reached the point where every position fits changes nothing
further, since it acts only on records on in a position that does not fit (R137, R138). -/
def State.reclaimStep (s : State) : State :=
  let s1 := s.victims.foldl State.reclaimLower s
  s1.victims.foldl State.reclaimRevoke s1

/-- Reclaiming begins (R136). -/
def State.beginReclaim (s : State) : State :=
  (({ s with alloc := { s.alloc with reclaiming := true } }.raise flagReclaim).setAllWaitReasons .budget).reclaimStep

/-- The Allocator takes a recomputed effective ceiling (R33, R132, R133, R139): an equal value does nothing; a rise is a trigger, and
while reclaiming is evaluated; a fall below some load begins reclaiming or runs a further reclaim step. -/
def State.setEffective (s : State) (new : Nat) : State :=
  if new = s.alloc.effCeiling then s
  else
    let s1 := { s with alloc := { s.alloc with effCeiling := new } }
    if s.alloc.effCeiling < new then s1.evaluate.trigger
    else if s1.alloc.fits then s1
    else if s.alloc.reclaiming then s1.reclaimStep
    else s1.beginReclaim

/-- The effective ceiling of a ceiling and a zone (R33). -/
def effectiveCeiling (ceiling : Nat) (z : Zone) : Nat :=
  ceiling * z.factor / 100

/-! ### Trip -/

/-- A GRANTED or RETIRING record enters SPENT with cause TRIP, forced no; the load table is emptied directly afterwards (R142). -/
def State.tripRecord (s : State) (i : RecIdx) : State :=
  match s.life i with
  | .granted t _ => (s.setLife i (.spent t .trip false)).leaveBay i t.bay
  | .retiring t _ _ _ => (s.setLife i (.spent t .trip false)).leaveBay i t.bay
  | _ => s

/-- The Allocator's part of entry into TRIP: grant order list empty, load table 0, reclaiming no, state TRIP (R142). -/
def Allocator.tripped (a : Allocator) : Allocator :=
  { a with grantOrder := [], loads := Vector.replicate 64 0, reclaiming := false, opState := .trip }

/-- Entry into TRIP as one action (R141, R142). The hold reasons and the wait queue's order are kept. -/
def State.enterTrip (s : State) : State :=
  let s1 := (allRecords.foldl State.tripRecord s).modBays Bay.openEnable
  let s2 := { s1 with alloc := s1.alloc.tripped }
  let s3 := if s.alloc.reclaiming then s2.raise flagReclaim else s2
  (s3.setAllWaitReasons .hold).raise flagTrip

/-! ### Zones -/

/-- The zone of a filtered code under the three codes (R130). -/
def zoneOf (p : Params) : Option Nat → Zone
  | none => .normal
  | some f => if f < p.warmCode then .normal else if f < p.hotCode then .warm else if f < p.criticalCode then .hot else .critical

/-- The Allocator takes a zone report (R132, R141). -/
def State.takeZone (s : State) (z : Zone) : State :=
  if z = .critical ∧ (s.alloc.opState = .running ∨ s.alloc.opState = .hold) then
    { s with alloc := { s.alloc with effCeiling := effectiveCeiling s.alloc.ceiling z } }.enterTrip
  else s.setEffective (effectiveCeiling s.alloc.ceiling z)

/-- A new derivation of the zone from the filtered code held: a different zone is a zone change, which raises ZONE and is reported (R130). -/
def State.deriveZone (s : State) : State :=
  let z := zoneOf s.params s.thermal.filtered
  if z = s.thermal.zone then s else ({ s with thermal := { s.thermal with zone := z } }.raise flagZone).takeZone z

/-! ### Operating state -/

/-- The state that START and RESUME enter, and HOLD leaves for: HOLD while a reason is set, else RUNNING, whose entry is a trigger
(R154, R155, R158). -/
def State.enterWork (s : State) : State :=
  if s.alloc.holdPort = true ∨ s.alloc.holdClock = true then { s with alloc := { s.alloc with opState := .hold } }
  else { s with alloc := { s.alloc with opState := .running } }.trigger

/-- A hold reason has become set: RUNNING becomes HOLD and every wait reason HOLD; any other state is unchanged (R154). -/
def State.holdIfRunning (s : State) : State :=
  if s.alloc.opState = .running then ({ s with alloc := { s.alloc with opState := .hold } }).setAllWaitReasons .hold else s

/-- A hold reason has become clear: HOLD with no reason left becomes RUNNING, a trigger; any other state is unchanged (R154). -/
def State.runIfReleased (s : State) : State :=
  if s.alloc.opState = .hold then s.enterWork else s

/-- The hold reason PORT becomes set (R157). -/
def State.setHoldPort (s : State) : State :=
  { s with alloc := { s.alloc with holdPort := true } }.holdIfRunning

/-- The hold reason PORT becomes clear (R157). -/
def State.clearHoldPort (s : State) : State :=
  { s with alloc := { s.alloc with holdPort := false } }.runIfReleased

/-- The hold reason CLOCK becomes set (R151). -/
def State.setHoldClock (s : State) : State :=
  { s with alloc := { s.alloc with holdClock := true } }.holdIfRunning

/-- The hold reason CLOCK becomes clear (R151). -/
def State.clearHoldClock (s : State) : State :=
  { s with alloc := { s.alloc with holdClock := false } }.runIfReleased

/-- Whether some record is GRANTED or RETIRING (R156). -/
def State.anyHoldsLoad (s : State) : Bool :=
  s.pool.records.toList.any fun r => r.life.holdsLoad

/-! ### Changes of a live record -/

/-- The terms with the changed fields taken from the copy (R24, R25). -/
def Terms.changed (t : Terms) (ch : ChangedFields) (c : EditCopy) : Terms :=
  { t with
    cls := if ch.cls then c.cls else t.cls
    requested := if ch.requested then c.requested else t.requested
    floor := if ch.floor then c.floor else t.floor
    mask := if ch.pattern then c.mask else t.mask
    value := if ch.pattern then c.value else t.value
    leaseLength := if ch.leaseLength then c.leaseLength else t.leaseLength
    taper := if ch.taper then c.taper else t.taper }

/-- The record checks on the resulting terms that every state shares (R24). -/
def Terms.changeOk (t : Terms) : Bool :=
  decide (t.floor ≤ t.requested) && ((t.value &&& ~~~t.mask) == 0#6) && (t.leaseLength != 0 || t.origin == .port)

/-- The check of a change against the record's state: none when it passes, else the refusal (R24). -/
def Life.refuses (l : Life) (ch : ChangedFields) (c : EditCopy) : Option ReplyCode :=
  match l with
  | .waiting t _ => if (t.changed ch c).changeOk then none else some .badArg
  | .granted t g =>
    if ch.cls || ch.pattern then some .state
    else if (t.changed ch c).changeOk && decide ((t.changed ch c).floor ≤ min g.staged (t.changed ch c).requested) then none
    else some .badArg
  | .free => some .state
  | .retiring _ _ _ _ => some .state
  | .spent _ _ _ => some .state

/-- The taper state set up for a new taper list: step 0 with the step-open mark yes, none for an empty list (R25, R66). -/
def taperSetUp : List TaperStep → Option TaperState
  | [] => none
  | st :: _ => some { step := 0, left := st.periods, unopened := true }

/-- The grant of a GRANTED record after a change (R25). -/
def Grant.changed (g : Grant) (old new : Terms) (ch : ChangedFields) : Grant :=
  { g with
    staged := if ch.requested then min g.staged new.requested else g.staged
    leaseLeft :=
      if ch.leaseLength then
        if new.leaseLength = 0 then none else if old.leaseLength = 0 then some new.leaseLength else g.leaseLeft
      else g.leaseLeft
    taperState := if ch.taper then taperSetUp new.taper else g.taperState }

/-- A change that carries the class of a WAITING record: it is removed and enters again by its new class, which is a trigger (R25, R36). -/
def State.requeue (s : State) (i : RecIdx) (c : Fin 4) : State :=
  (({ s with alloc := { s.alloc with waitQueue := s.alloc.waitQueue.filter (· ≠ i) } }).enqueue i c).trigger

/-- Apply a change that has passed R24, all its fields together (R25). -/
def State.applyChange (s : State) (i : RecIdx) (ch : ChangedFields) (c : EditCopy) : State :=
  match s.life i with
  | .waiting t r =>
    let t1 := t.changed ch c
    let s1 := s.setLife i (.waiting t1 (if ch.cls then s.entryReason r else r))
    if ch.cls then s1.requeue i t1.cls else s1
  | .granted t g => s.become i (.granted (t.changed ch c) (g.changed t (t.changed ch c) ch))
  | _ => s

/-- A renewal reloads the lease of a GRANTED record that has one (R63, R64). -/
def State.reloadLease (s : State) (i : RecIdx) : State :=
  match s.life i with
  | .granted t g => if t.leaseLength = 0 then s else s.setLife i (.granted t { g with leaseLeft := some t.leaseLength })
  | _ => s

/-! ### Sampler requests -/

/-- A channel joins a set of requests; one already there adds nothing (R96). -/
def addChannel (c : Channel) (l : List Channel) : List Channel :=
  allChannels.filter fun d => d = c || l.contains d

/-- The converter channel of a bay (R93). -/
def bayChannel (b : BayIdx) : Channel :=
  b.castLE (by decide)

/-- The channels FEED and TEMP (R93, R184). -/
def feedChannel : Channel := 16
def tempChannel : Channel := 17

/-- Raise a CONFIRM request (R96). -/
def State.requestConfirm (s : State) (c : Channel) : State :=
  { s with sampler := { s.sampler with confirmRequests := addChannel c s.sampler.confirmRequests } }

/-- Raise a CALIBRATION request (R96, R121). -/
def State.requestCalibration (s : State) (b : BayIdx) : State :=
  { s with sampler := { s.sampler with calRequests := addChannel (bayChannel b) s.sampler.calRequests } }

/-- Raise a PORT request (R96, R98). -/
def State.requestPort (s : State) (c : Channel) : State :=
  { s with sampler := { s.sampler with portRequests := addChannel c s.sampler.portRequests } }

/-! ### Calibration end -/

/-- The calibration fields of a bay whose calibration ends with a result (R123). -/
def Bay.calEnded (y : Bay) (r : CalResult) : Bay :=
  { y with calState := .idle, lastResult := r, settleLeft := 0, samplesTaken := 0, sampleSum := 0 }

/-- A calibration ends with PASS, OUT_OF_RANGE or NOT_QUIET: CAL_DONE is added and the end is a trigger (R123). -/
def State.endCalibration (s : State) (b : BayIdx) (r : CalResult) : State :=
  ((s.modBay b fun y => y.calEnded r).addEvent b .calDone).trigger

end Sys2Proof.Machine
end

