-- ==== Sys2Proof/Machine/BayLink.lean ====
section
/-!
DEFINITION. The Bay Link: the poll schedule (R165, R166), the POLL (R167), the ends of a visit (R168, R169) and the requests a REPORT
carries (R5, R12, R16, R64, R170 to R172).
-/
namespace Sys2Proof.Machine

/-! ### The schedule -/

/-- The schedule reaches the next bay; after bay 15 the round ends and its number advances, 7 followed by 0 (R166). -/
def Link.advance (l : Link) : Link :=
  { l with position := l.position + 1, round := if l.position = 15 then l.round + 1 else l.round }

/-- The schedule skips the bays it does not visit: a bay is visited when it is PRESENT or the round number is 0 (R166). -/
def Link.seek (present : BayIdx → Bool) : Nat → Link → Link
  | 0, l => l
  | n + 1, l => if present l.position || l.round == 0 then l else Link.seek present n l.advance

/-- The most bays the schedule can skip before a visit: the rest of a round and the rounds numbered up to 7 (R166). -/
def skipBound : Nat := 128

/-- The schedule at its next visit (R166). -/
def State.nextVisit (s : State) : Link :=
  s.link.seek (fun b => (s.bay b).presence == .present) skipBound

/-- POLL_SEND: with no visit in progress, the next bay is visited: its POLL is sent, its answer slot becomes NONE and its reply window
opens at the end of the POLL (R166, R167, R168, log 11). -/
def execPollSend (s : State) : Host.Outcome State Fault Refusal :=
  .next
    (if s.link.phase = .none then
      let l := s.nextVisit
      { s.modBay l.position (fun y => { y with answer := none }) with
        link := { l with phase := .reply, lastPoll := some (s.pollFrame l.position) } }
    else s)

/-! ### The end of a visit -/

/-- A miss: the count rises, stopping at 3, and at 3 the bay is ABSENT (R169). -/
def Bay.missed (y : Bay) : Bay :=
  { y with
    missCount := min 3 (y.missCount + 1)
    presence := if 3 ≤ y.missCount + 1 then .absent else y.presence }

/-- A good REPORT: the bay is PRESENT with miss count 0 (R169). -/
def Bay.reported (y : Bay) : Bay :=
  { y with missCount := 0, presence := .present }

/-- A visit ends: what arrived changes the bay's presence, and the schedule goes on. With no reply window open nothing arrives (R168, R169). -/
def State.endVisit (s : State) (f : Bay → Bay) : State :=
  { s.modBay s.link.position f with link := { s.link.advance with phase := .none } }

/-- A visit that ends in a miss (R168). -/
def State.miss (s : State) : State :=
  if s.link.phase = .none then s else s.endVisit Bay.missed

/-- A good REPORT of the polled bay is taken as one step: the presence first, then its request (R170). -/
def State.report (s : State) (f : BayIdx → State → State) : State :=
  if s.link.phase = .none then s else f s.link.position (s.endVisit Bay.reported)

/-- REPLY_WINDOW_EXPIRY (R168). -/
def execReplyWindowExpiry (s : State) : Host.Outcome State Fault Refusal :=
  .next s.miss

/-- BAD_FRAME (R168). -/
def execBadFrame (s : State) : Host.Outcome State Fault Refusal :=
  .next s.miss

/-- FOREIGN_FRAME (R168). -/
def execForeignFrame (s : State) : Host.Outcome State Fault Refusal :=
  .next s.miss

/-- REPORT_NONE (R170). -/
def execReportNone (s : State) : Host.Outcome State Fault Refusal :=
  .next (s.report fun _ s => s)

/-! ### Requests -/

/-- An answer is written to the reporting bay's slot (R171). -/
def State.writeAnswer (s : State) (b : BayIdx) (code : AnswerCode) (h : Nat) : State :=
  s.modBay b fun y => { y with answer := some { code := code, handle := h } }

/-- The resolution of a link handle (R5): the record to decide on, or the answer. -/
def State.resolveLink (s : State) (b : BayIdx) (h : Nat) : Except AnswerCode RecIdx :=
  match s.resolve h with
  | none => .error .badHandle
  | some i =>
    match s.life i with
    | .free => .error .closed
    | .waiting t _ => if t.bay = b then .ok i else .error .badHandle
    | .granted t _ => if t.bay = b then .ok i else .error .badHandle
    | .retiring t _ _ _ => if t.bay = b then .ok i else .error .badHandle
    | .spent t _ _ => if t.bay = b then .error .closed else .error .badHandle

/-- A link request that names a handle: the checks of R5, else the request's own rule. -/
def State.withLinkHandle (s : State) (b : BayIdx) (h : Nat) (f : RecIdx → State → State) : State :=
  match s.resolveLink b h with
  | .ok i => f i s
  | .error code => s.writeAnswer b code h

/-- An ASK with checked fields: REFUSED in TRIP, ALREADY, NO_RECORD with POOL_FULL raised, else a LINK record (R12). -/
def State.askFor (s : State) (b : BayIdx) (r : Request) : State :=
  if s.alloc.opState = .trip then s.writeAnswer b .refused noHandle
  else
    match (s.bay b).record with
    | some i => s.writeAnswer b .already (s.handle i)
    | none =>
      match s.pool.freeList with
      | [] => (s.raise flagPoolFull).writeAnswer b .noRecord noHandle
      | i :: rest => (s.create i rest (r.terms b .link)).writeAnswer b .accepted (s.handle i)

/-- The fields of an ASK: those of ALLOC, and a lease length of at least 1 (R12). -/
def askRequest (cls : Byte) (requested floor : Half) (lease mask value : Byte) : Option Request :=
  if lease.toNat = 0 then none
  else requestOf? cls.toNat requested.toNat floor.toNat lease.toNat mask.toNat value.toNat

/-- ASK (R12, R170, R171). -/
def execAsk (cls : Byte) (requested floor : Half) (lease mask value : Byte) (s : State) : Host.Outcome State Fault Refusal :=
  .next
    (s.report fun b s =>
      match askRequest cls requested floor lease mask value with
      | some r => s.askFor b r
      | none => s.writeAnswer b .badArg noHandle)

/-- The changed-field set of a CHANGE: requested and floor (R172). -/
def ChangedFields.ofChange : ChangedFields :=
  { cls := false, requested := true, floor := true, leaseLength := false, pattern := false, taper := false }

/-- A copy that carries a CHANGE's requested value and floor; the other fields are not in the changed-field set. -/
def EditCopy.ofChange (requested floor : Nat) : EditCopy :=
  { cls := 0, requested := requested, floor := floor, mask := 0, value := 0, leaseLength := 0, taper := [] }

/-- A CHANGE of a WAITING or GRANTED record: refused with BAD_ARG, or applied, which overtakes a window on the record (R172, R179). -/
def State.changeRecord (s : State) (b : BayIdx) (h : Nat) (i : RecIdx) (c : EditCopy) : State :=
  match (s.life i).refuses ChangedFields.ofChange c with
  | some _ => s.writeAnswer b .badArg h
  | none => ((s.applyChange i ChangedFields.ofChange c).markStale i).writeAnswer b .accepted h

/-- A CHANGE taken from a bay (R172). -/
def State.takeChange (s : State) (b : BayIdx) (h requested floor : Nat) : State :=
  if requested = 0 ∨ 630 < requested ∨ 630 < floor then s.writeAnswer b .badArg h
  else
    s.withLinkHandle b h fun i s =>
      match s.life i with
      | .retiring _ _ _ _ => s.writeAnswer b .expired h
      | _ => s.changeRecord b h i (EditCopy.ofChange requested floor)

/-- CHANGE (R170, R172). -/
def execChange (handle requested floor : Half) (s : State) : Host.Outcome State Fault Refusal :=
  .next (s.report fun b s => s.takeChange b handle.toNat requested.toNat floor.toNat)

/-- LINK_RENEW (R64). -/
def execLinkRenew (handle : Half) (s : State) : Host.Outcome State Fault Refusal :=
  .next
    (s.report fun b s => s.withLinkHandle b handle.toNat fun i s =>
      match s.life i with
      | .retiring _ _ _ _ => s.writeAnswer b .expired handle.toNat
      | _ => (s.reloadLease i).writeAnswer b .accepted handle.toNat)

/-- RELEASE (R16). -/
def execRelease (handle : Half) (s : State) : Host.Outcome State Fault Refusal :=
  .next
    (s.report fun b s => s.withLinkHandle b handle.toNat fun i s =>
      match s.life i with
      | .waiting _ _ => (s.enterSpent i .withdrawn false).writeAnswer b .accepted handle.toNat
      | .granted _ _ => (s.enterRetiring i .released).writeAnswer b .accepted handle.toNat
      | _ => s.writeAnswer b .accepted handle.toNat)

end Sys2Proof.Machine
end

