-- ==== Sys2Proof/Machine/Boundary.lean ====
section
/-!
DEFINITION. Time: the period boundary and its parts (R31, R56, R58 to R71, R77 to R80, R84 to R87, R106, R114, R119), the events of one
boundary that are steps of their own, the millisecond tick (R55) and the signal period (R81, R82).
-/
namespace Sys2Proof.Machine

/-! ### A record at a boundary -/

/-- The taper count of a GRANTED record whose list is not empty (R67): its taper state after the boundary, and whether the list was
exhausted at this one with a last step of current 0 (R68). -/
def countTaper (l : List TaperStep) (ts : TaperState) : TaperState × Bool :=
  if ts.unopened then ({ ts with unopened := false }, false)
  else if 1 < ts.left then ({ ts with left := ts.left - 1 }, false)
  else if ts.left = 0 then (ts, false)
  else
    match l[ts.step + 1]? with
    | some st => ({ step := ts.step + 1, left := st.periods, unopened := false }, false)
    | none => ({ ts with left := 0 }, ((l[ts.step]?).map TaperStep.current) == some 0)

/-- The taper part of a GRANTED record's boundary step (R58, R67, R68). -/
def Grant.countTaper (t : Terms) (g : Grant) : Grant × Option EndCause :=
  match g.taperState with
  | none => (g, none)
  | some ts =>
    ({ g with taperState := some (Machine.countTaper t.taper ts).1 },
     if (Machine.countTaper t.taper ts).2 then some .taperEnd else none)

/-- The boundary step of a GRANTED record (R58): activation (R59), the lease count (R61), and, unless the lease ended, the taper count. -/
def Grant.boundary (t : Terms) (g : Grant) : Grant × Option EndCause :=
  let g1 := { g with active := g.staged }
  match g1.leaseLeft with
  | some n => if n ≤ 1 then ({ g1 with leaseLeft := some 0 }, some .leaseEnd) else Grant.countTaper t { g1 with leaseLeft := some (n - 1) }
  | none => Grant.countTaper t g1

/-- The boundary step of a record (R58): a GRANTED record is activated and counted, a RETIRING record's ramp is counted (R70), and the
others are not touched. -/
def State.recordBoundary (s : State) (i : RecIdx) : State :=
  match s.life i with
  | .granted t g =>
    let s1 := s.become i (.granted t (g.boundary t).1)
    match (g.boundary t).2 with
    | some cause => s1.enterRetiring i cause
    | none => s1
  | .retiring t a c n => if n ≤ 1 then s.rampCut i else s.setLife i (.retiring t a c (n - 1))
  | _ => s

/-- The step current of a GRANTED record, none for an empty taper list (R66). -/
def stepCurrent (t : Terms) (g : Grant) : Option Nat :=
  g.taperState.bind fun ts => (t.taper[ts.step]?).map TaperStep.current

/-- The limit value a boundary that opens position `p` gives the bay of a record (R71, R78). -/
def Life.limitAt (l : Life) (p : Position) : Nat :=
  match l with
  | .granted t g =>
    if t.onAt p then
      match stepCurrent t g with
      | some c => min g.active c
      | none => g.active
    else 0
  | _ => 0

/-- The bay's new limit value at the boundary that opened the present position (R78). -/
def State.boundaryLimit (s : State) (b : BayIdx) : Nat :=
  match s.bayLife b with
  | some l => l.limitAt s.timer.position
  | none => 0

/-- The record that the latest boundary found GRANTED or RETIRING on a bay, while the bay's entry still names that life; a claim of the
boundary on any other record is dropped (R10, R58). -/
def State.foundRecord (s : State) (b : BayIdx) : Option RecIdx :=
  (s.bay b).record.filter fun i => s.timer.found.get b == some (s.handle i)

/-- A bay at a boundary: its graces end (R84, R85), the record the boundary found there takes its boundary step, and the limit is computed from
the bay's record as that step left it (R71, R78, R84). -/
def State.bayBoundary (s : State) (b : BayIdx) : State :=
  let s1 := s.modBay b Bay.endGraces
  let s2 :=
    match s1.foundRecord b with
    | some i => s1.recordBoundary i
    | none => s1
  s2.modBay b fun y => y.setLimit (s2.boundaryLimit b)

/-! ### The other blocks at a boundary -/

/-- One count of the strike window of the GRANTED record the boundary found on the bay (R10, R106). -/
def State.countStrikeWindow (s : State) (b : BayIdx) : State :=
  match s.foundRecord b with
  | none => s
  | some i =>
    match s.life i with
    | .granted t g =>
      if g.strikeWindowLeft ≤ 1 then
        s.setLife i (.granted t { g with strikes := 0, strikeWindowLeft := s.params.strikeWindow })
      else s.setLife i (.granted t { g with strikeWindowLeft := g.strikeWindowLeft - 1 })
    | _ => s

/-- The charge limit of four bytes (R1). -/
def chargeTop : Nat := 4294967295

/-- A charge claim taken with a mean draw: whole dA·s are gained, saturating, and the remainder is the residue (R114). -/
def Terms.charged (t : Terms) (mean periodLength : Nat) : Terms :=
  { t with
    charge := min chargeTop (t.charge + (mean * periodLength + t.residue) / 1000)
    residue := (mean * periodLength + t.residue) % 1000 }

/-- A charge claim on a record, taken when it is GRANTED or RETIRING and dropped otherwise (R114). -/
def State.chargeRecord (s : State) (i : RecIdx) (mean : Nat) : State :=
  match s.life i with
  | .granted t g => s.setLife i (.granted (t.charged mean s.params.periodLength) g)
  | .retiring t a c n => s.setLife i (.retiring (t.charged mean s.params.periodLength) a c n)
  | _ => s

/-- The charge claim of a bay at a boundary; the period sum and count return to 0 and the sum owner stays (R114). -/
def State.foldCharge (s : State) (b : BayIdx) : State :=
  let y := s.bay b
  let s1 :=
    match y.sumOwner with
    | some h =>
      if y.periodCount = 0 then s
      else
        match s.resolve h with
        | some i => s.chargeRecord i (y.periodSum / y.periodCount)
        | none => s
    | none => s
  s1.modBay b fun y => { y with periodSum := 0, periodCount := 0 }

/-- One count of the close window; at 0 every close count returns to 0, the counter is loaded again and the end is a trigger (R87). -/
def State.countCloseWindow (s : State) : State :=
  if s.closeWindowLeft ≤ 1 then
    ({ s with closeWindowLeft := s.params.closeWindow }.modBays fun y => { y with closeCount := 0 }).trigger
  else { s with closeWindowLeft := s.closeWindowLeft - 1 }

/-- One count of a SETTLING bay's settle interval; at 0 the bay enters SAMPLING and its first CALIBRATION request is raised (R119). -/
def State.countSettle (s : State) (b : BayIdx) : State :=
  match (s.bay b).calState with
  | .settling =>
    if (s.bay b).settleLeft ≤ 1 then
      (s.modBay b fun y => { y with calState := .sampling, settleLeft := 0 }).requestCalibration b
    else s.modBay b fun y => { y with settleLeft := y.settleLeft - 1 }
  | _ => s

/-! ### The boundary -/

/-- One block takes its part of a boundary. -/
def State.takePart (s : State) : BoundaryPart → State
  | .bay b => s.bayBoundary b
  | .strikes b => s.countStrikeWindow b
  | .charge b => s.foldCharge b
  | .closeWindow => s.countCloseWindow
  | .settle b => s.countSettle b

/-- Every part of a boundary, in the order in which PERIOD_BOUNDARY takes those it takes itself (log 3). -/
def boundaryParts : List BoundaryPart :=
  allBays.map .bay ++ allBays.map .strikes ++ allBays.map .charge ++ [.closeWindow] ++ allBays.map .settle

/-- The parts of a list taken one after another. -/
def State.takeParts (s : State) (l : List BoundaryPart) : State :=
  l.foldl State.takePart s

/-- The parts of the latest boundary still outstanding are taken, so that none is (log 3). -/
def State.finishBoundary (s : State) : State :=
  { s with timer := { s.timer with outstanding := [] } }.takeParts s.timer.outstanding

/-- An outstanding part taken by a step of its own (log 3). -/
def State.takeOutstanding (s : State) (p : BoundaryPart) : State :=
  { s with timer := { s.timer with outstanding := s.timer.outstanding.filter (· ≠ p) } }.takePart p

/-- The handle of the bay's record while it is GRANTED or RETIRING: the record a boundary finds on the bay (R58). -/
def State.heldHandle (s : State) (b : BayIdx) : Option Nat :=
  ((s.bay b).record.filter fun i => (s.life i).holdsLoad).map s.handle

/-- The timer at a boundary: the count is 0, the position one further, 63 followed by 0, the parts in `later` outstanding, and the records the
boundary finds noted (R10, R56, R58). -/
def Timer.advance (t : Timer) (later : List BoundaryPart) (found : Vector (Option Nat) 16) : Timer :=
  { t with ms := 0, position := t.position + 1, outstanding := boundaryParts.filter (fun p => later.contains p), found := found }

/-- The boundary: the timer opens the next position and every block takes its part, but for the parts in `later` (R56, R58). -/
def State.boundary (s : State) (later : List BoundaryPart) : State :=
  { s with timer := s.timer.advance later (Vector.ofFn s.heldHandle) }.takeParts (boundaryParts.filter fun p => !later.contains p)

/-- PERIOD_BOUNDARY: the millisecond that brings the count to the period length (R56). With the timer stopped, or the count not there, no
boundary is raised and nothing changes (R55). -/
def execPeriodBoundary (later : List BoundaryPart) (s : State) : Host.Outcome State Fault Refusal :=
  .next (if s.timer.running = true ∧ s.timer.ms + 1 = s.params.periodLength then s.finishBoundary.boundary later else s)

/-- MILLISECOND_TICK: while the timer runs the count rises by one, short of the period length (R55). -/
def execMillisecondTick (s : State) : Host.Outcome State Fault Refusal :=
  .next
    (if s.timer.running = true ∧ s.timer.ms + 1 < s.params.periodLength then
      let s1 := s.finishBoundary
      { s1 with timer := { s1.timer with ms := s1.timer.ms + 1 } }
    else s)

/-! ### Events of one boundary that are steps of their own -/

/-- An outstanding boundary step of a record's bay is taken when the boundary found that life of the record and it meets the event's condition;
an event that is not due changes nothing (R10, log 1, log 3). -/
def State.recordEvent (s : State) (i : RecIdx) (due : Life → Bool) : State :=
  match (s.life i).terms? with
  | some t =>
    if s.timer.outstanding.contains (.bay t.bay) = true ∧ s.foundRecord t.bay = some i ∧ due (s.life i) = true then
      s.takeOutstanding (.bay t.bay)
    else s
  | none => s

/-- The lease count brings lease remaining to 0 (R61). -/
def Life.leaseEnds : Life → Bool
  | .granted t g => (g.boundary t).2 == some .leaseEnd
  | _ => false

/-- The taper count exhausts the list with a last step of current 0 (R68). -/
def Life.taperEnds : Life → Bool
  | .granted t g => (g.boundary t).2 == some .taperEnd
  | _ => false

/-- The taper count moves to the next step (R67). -/
def Life.taperAdvances : Life → Bool
  | .granted t g =>
    (g.boundary t).2 == none &&
      ((g.boundary t).1.taperState.map TaperState.step != g.taperState.map TaperState.step)
  | _ => false

/-- The ramp count reaches 0 (R70). -/
def Life.rampEnds : Life → Bool
  | .retiring _ _ _ n => decide (n ≤ 1)
  | _ => false

/-- The strike window count reaches 0 (R106). -/
def Life.strikeWindowEnds : Life → Bool
  | .granted _ g => decide (g.strikeWindowLeft ≤ 1)
  | _ => false

/-- LEASE_END: a record's boundary step whose lease count ends the lease; it enters RETIRING with LEASE_END (R61, R15). -/
def execLeaseEnd (i : RecIdx) (s : State) : Host.Outcome State Fault Refusal :=
  .next (s.recordEvent i Life.leaseEnds)

/-- TAPER_STEP_ADVANCE: a record's boundary step whose taper count opens the next step (R67). -/
def execTaperStepAdvance (i : RecIdx) (s : State) : Host.Outcome State Fault Refusal :=
  .next (s.recordEvent i Life.taperAdvances)

/-- TAPER_END: a record's boundary step that exhausts a taper whose last step has current 0 (R68). -/
def execTaperEnd (i : RecIdx) (s : State) : Host.Outcome State Fault Refusal :=
  .next (s.recordEvent i Life.taperEnds)

/-- RAMP_TIMEOUT: a RETIRING record's boundary step whose ramp count reaches 0 (R21, R70). -/
def execRampTimeout (i : RecIdx) (s : State) : Host.Outcome State Fault Refusal :=
  .next (s.recordEvent i Life.rampEnds)

/-- STRIKE_WINDOW_END: the outstanding strike window count of a record that ends its window (R106). -/
def execStrikeWindowEnd (i : RecIdx) (s : State) : Host.Outcome State Fault Refusal :=
  .next
    (match (s.life i).terms? with
    | some t =>
      if s.timer.outstanding.contains (.strikes t.bay) = true ∧ s.foundRecord t.bay = some i ∧ (s.life i).strikeWindowEnds = true then
        s.takeOutstanding (.strikes t.bay)
      else s
    | none => s)

/-- CLOSE_WINDOW_END: the outstanding close window count that ends the window (R87). -/
def execCloseWindowEnd (s : State) : Host.Outcome State Fault Refusal :=
  .next (if s.timer.outstanding.contains .closeWindow = true ∧ s.closeWindowLeft ≤ 1 then s.takeOutstanding .closeWindow else s)

/-- SETTLE_END: the outstanding settle count of a SETTLING bay that reaches 0 (R119). -/
def execSettleEnd (b : BayIdx) (s : State) : Host.Outcome State Fault Refusal :=
  .next
    (if s.timer.outstanding.contains (.settle b) = true ∧ (s.bay b).calState = .settling ∧ (s.bay b).settleLeft ≤ 1 then
      s.takeOutstanding (.settle b)
    else s)

/-! ### The signal period -/

/-- The next millisecond of the internal oscillator lasts 33 ticks, not 32 (R152). -/
def longMillisecond (remainder : Nat) : Bool :=
  decide (1000 ≤ remainder + 768)

/-- The remainder after one millisecond of the internal oscillator (R152). -/
def nextRemainder (remainder : Nat) : Nat :=
  if longMillisecond remainder then remainder + 768 - 1000 else remainder + 768

/-- The Clock Monitor at a millisecond of the time base: the remainder moves while the internal oscillator supplies it (R145, R152). The remainder
moves as a millisecond begins and by the source at its beginning, so a switch within a millisecond neither adds a gain nor takes one back:
R152 has that millisecond completed on the new source and says no more, and this is the model's choice (DESIGN CHOICE, log 14). The
check window that ended is no longer the event before (log 13). -/
def Clock.millisecond (c : Clock) : Clock :=
  { c with windowFresh := false, msRemainder := if c.state = .reference then c.msRemainder else nextRemainder c.msRemainder }

/-- SIGNAL_PERIOD_START: every in-effect duty takes its staged duty (R82); a signal period is one millisecond of the time base (R81). -/
def execSignalPeriodStart (s : State) : Host.Outcome State Fault Refusal :=
  .next { s.modBays (fun y => { y with inEffectDuty := y.stagedDuty }) with clock := s.clock.millisecond }

end Sys2Proof.Machine
end

