-- ==== Sys2Proof/Machine/Configuration.lean ====
section
/-!
DEFINITION. Configuration: CONFIG.WRITE, CONFIG.READ, CEILING.WRITE and BAY.GATE (R131, R160 to R163).
-/
namespace Sys2Proof.Machine

/-- The range of a parameter, numbered in the order of R161; none for a number that is no parameter (R161, R184). -/
def paramRange : Nat → Option (Nat × Nat)
  | 0 => some (20, 1000)
  | 1 => some (0, 50)
  | 2 => some (1, 15)
  | 3 => some (1, 255)
  | 4 => some (1, 15)
  | 5 => some (1, 4095)
  | 6 => some (1, 63)
  | 7 => some (1, 20)
  | 8 => some (1, 50)
  | 9 => some (0, 200)
  | 10 => some (0, 15)
  | 11 => some (0, 63)
  | 12 => some (0, 63)
  | 13 => some (0, 63)
  | 14 => some (1, 2)
  | 15 => some (1, 15)
  | 16 => some (1, 65534)
  | 17 => some (1, 65534)
  | _ => none

/-- A value within the range of an existing parameter (R161). -/
def paramInRange (n v : Nat) : Bool :=
  match paramRange n with
  | some (lo, hi) => decide (lo ≤ v) && decide (v ≤ hi)
  | none => false

/-- The parameters with one of them written (R161). -/
def Params.write (p : Params) (n v : Nat) : Params :=
  match n with
  | 0 => { p with periodLength := v }
  | 1 => { p with tolerance := v }
  | 2 => { p with strikeLimit := v }
  | 3 => { p with strikeWindow := v }
  | 4 => { p with closeLimit := v }
  | 5 => { p with closeWindow := v }
  | 6 => { p with retireTimeout := v }
  | 7 => { p with restThreshold := v }
  | 8 => { p with strayThreshold := v }
  | 9 => { p with feedMargin := v }
  | 10 => { p with squeezeClasses := BitVec.ofNat 4 v }
  | 11 => { p with warmCode := v }
  | 12 => { p with hotCode := v }
  | 13 => { p with criticalCode := v }
  | 14 => { p with hysteresis := v }
  | 15 => { p with calSettle := v }
  | 16 => { p with bandLow := v }
  | 17 => { p with bandHigh := v }
  | _ => p

/-- The orderings between parameters (R161). -/
def Params.ordered (p : Params) : Bool :=
  decide (p.warmCode < p.hotCode) && decide (p.hotCode < p.criticalCode) && decide (p.bandLow < p.bandHigh)

/-- A parameter write that is taken: a value already held changes nothing, and a change of a thermal code derives the zone again (R131, R161). -/
def State.writeParam (s : State) (n v : Nat) : State :=
  if s.params.write n v = s.params then s
  else
    let s1 := { s with params := s.params.write n v }
    if n = 11 ∨ n = 12 ∨ n = 13 then s1.deriveZone else s1

/-- CONFIG.WRITE with its parameter and value, in the order of checks of R161. -/
def State.configWrite (s : State) (n v : Nat) : State :=
  if paramInRange n v = false then s.refuse .badArg
  else if s.alloc.opState ≠ .standby then s.refuse .state
  else if (s.params.write n v).ordered = false then s.refuse .badArg
  else (s.writeParam n v).ok

/-- CONFIG.WRITE (R161). -/
def execConfigWrite (args : List Byte) (s : State) : Host.Outcome State Fault Refusal :=
  .next
    (match args with
    | [n, hi, lo] => s.configWrite n.toNat (u16 hi lo)
    | _ => s.refuse .badArg)

/-- CONFIG.READ (R163). -/
def execConfigRead (args : List Byte) (s : State) : Host.Outcome State Fault Refusal :=
  .next (s.noArgs args fun s => s.answer .ok s.configImage)

/-- A ceiling that is taken: the effective ceiling is recomputed under the zone in force (R133, R162). -/
def State.writeCeiling (s : State) (v : Nat) : State :=
  { s with alloc := { s.alloc with ceiling := v } }.setEffective (effectiveCeiling v s.thermal.zone)

/-- CEILING.WRITE (R162). -/
def execCeilingWrite (args : List Byte) (s : State) : Host.Outcome State Fault Refusal :=
  .next
    (match args with
    | [hi, lo] => if u16 hi lo ≤ 2500 then (s.writeCeiling (u16 hi lo)).ok else s.refuse .badArg
    | _ => s.refuse .badArg)

/-- Every bay of the mask takes the gate; if one goes from SHUT to OPEN the command is one trigger (R160). -/
def State.setGates (s : State) (mask : Nat) (g : Gate) : State :=
  let s1 := { s with bays := Vector.ofFn fun b => if mask.testBit b.val then { s.bay b with gate := g } else s.bay b }
  if g = .opened ∧ (allBays.any fun b => mask.testBit b.val && (s.bay b).gate == .shut) = true then s1.trigger else s1

/-- BAY.GATE (R160): value 0 OPEN, 1 SHUT. -/
def execBayGate (args : List Byte) (s : State) : Host.Outcome State Fault Refusal :=
  .next
    (match args with
    | [hi, lo, v] =>
      if v.toNat = 0 then (s.setGates (u16 hi lo) .opened).ok
      else if v.toNat = 1 then (s.setGates (u16 hi lo) .shut).ok
      else s.refuse .badArg
    | _ => s.refuse .badArg)

end Sys2Proof.Machine
end

