-- ==== Sys2Proof/Machine/Inspection.lean ====
section
/-!
DEFINITION. The inspection commands (R51 to R53, R176) and the bay and sampling commands of the Host Port (R98, R99, R110, R117).
-/
namespace Sys2Proof.Machine

/-- QUEUE.READ (R51). -/
def execQueueRead (args : List Byte) (s : State) : Host.Outcome State Fault Refusal :=
  .next (s.noArgs args fun s => s.answer .ok s.queueImage)

/-- ORDER.READ (R52). -/
def execOrderRead (args : List Byte) (s : State) : Host.Outcome State Fault Refusal :=
  .next (s.noArgs args fun s => s.answer .ok s.orderImage)

/-- LOAD.READ (R53). -/
def execLoadRead (args : List Byte) (s : State) : Host.Outcome State Fault Refusal :=
  .next (s.noArgs args fun s => s.answer .ok s.loadImage)

/-- BAY.READ (R176). -/
def execBayRead (args : List Byte) (s : State) : Host.Outcome State Fault Refusal :=
  .next (s.bayArg args fun b s => s.answer .ok (s.bayImage b))

/-- IDENT.READ (R176). -/
def execIdentRead (args : List Byte) (s : State) : Host.Outcome State Fault Refusal :=
  .next (s.noArgs args fun s => s.answer .ok identImage)

/-- BAY.UNBLOCK of a bay (R110). -/
def State.unblock (s : State) (b : BayIdx) : State :=
  if (s.bay b).blockCause = .none then s.ok
  else if s.params.strayThreshold < (s.bay b).latestSample then s.refuse .state
  else (s.modBay b fun y => { y with blockCause := .none }).trigger.ok

/-- BAY.UNBLOCK (R110). -/
def execBayUnblock (args : List Byte) (s : State) : Host.Outcome State Fault Refusal :=
  .next (s.bayArg args fun b s => s.unblock b)

/-- What refuses a CAL.START (R117): TRIP, a GRANTED or RETIRING record, a CLOSED enable, a calibration in progress. -/
def State.calRefused (s : State) (b : BayIdx) : Bool :=
  s.alloc.opState == .trip || ((s.bayLife b).map Life.holdsLoad).getD false || (s.bay b).enable == .closed || (s.bay b).calState != .idle

/-- A calibration starts in SETTLING (R117). -/
def Bay.calStarted (y : Bay) (settle : Nat) : Bay :=
  { y with calState := .settling, settleLeft := settle, samplesTaken := 0, sampleSum := 0 }

/-- A CAL.START that is taken (R117). The calibration counts the boundaries after it (R119): a settle count of the latest boundary that is still
outstanding for the bay is not its own and is dropped (R10). -/
def State.startCalibration (s : State) (b : BayIdx) : State :=
  { s.modBay b (fun y => y.calStarted s.params.calSettle) with
    timer := { s.timer with outstanding := s.timer.outstanding.filter (· ≠ .settle b) } }

/-- CAL.START (R117). -/
def execCalStart (args : List Byte) (s : State) : Host.Outcome State Fault Refusal :=
  .next
    (s.bayArg args fun b s =>
      if s.calRefused b then s.refuse .state else (s.startCalibration b).ok)

/-- A PORT request of the channel is pending or in conversion (R98). -/
def Sampler.portBusy (sm : Sampler) (c : Channel) : Bool :=
  sm.portRequests.contains c || sm.current == some { kind := .port, channel := c }

/-- Change one PORT sample holder. -/
def State.setHolder (s : State) (c : Channel) (h : Holder) : State :=
  { s with sampler := { s.sampler with holders := s.sampler.holders.set c.val h c.isLt } }

/-- SAMPLE.REQUEST (R98). -/
def execSampleRequest (args : List Byte) (s : State) : Host.Outcome State Fault Refusal :=
  .next
    (s.channelArg args fun c s =>
      if s.sampler.portBusy c then s.refuse .busy
      else ((s.setHolder c { s.sampler.holders.get c with ready := false }).requestPort c).ok)

/-- SAMPLE.READ (R99). -/
def execSampleRead (args : List Byte) (s : State) : Host.Outcome State Fault Refusal :=
  .next (s.channelArg args fun c s => s.answer .ok (s.sampler.holders.get c).image)

end Sys2Proof.Machine
end

