-- ==== Sys2Proof/Machine/Converter.lean ====
section
/-!
DEFINITION. CONVERSION_END: the Sampler's delivery and choice (R93 to R97), draw supervision (R101 to R113), calibration samples (R120 to
R122) and the thermal filter (R129).
-/
namespace Sys2Proof.Machine

/-! ### Results -/

/-- The bay of a channel, none for FEED and TEMP (R93). -/
def channelBay (c : Channel) : Option BayIdx :=
  if h : c.val < 16 then some ⟨c.val, h⟩ else none

/-- An integer held to a range. -/
def clampInt (lo hi v : Int) : Int :=
  max lo (min hi v)

/-- The raw value of a channel lies in the range of its input (R93); a reading outside it is the nearest end (log 9). -/
def rawOf (c : Channel) (raw : Int) : Int :=
  if c.val < 16 then clampInt (-100) 1100 raw else if c = feedChannel then clampInt 0 4000 raw else clampInt 0 63 raw

/-- A bay's result: the raw value less the bay's offset, clamped to 0 to 1000 dA (R93). -/
def Bay.result (y : Bay) (raw : Int) : Nat :=
  (clampInt 0 1000 (raw - y.offset)).toNat

/-- The result a scan, CONFIRM or PORT conversion delivers (R93). -/
def State.resultOf (s : State) (c : Channel) (raw : Int) : Nat :=
  match channelBay c with
  | some b => (s.bay b).result (rawOf c raw)
  | none => (rawOf c raw).toNat

/-! ### Draw supervision -/

/-- What supervises a bay when a result arrives: the first line of R102 and R103 that applies. -/
inductive BayWatch where
  | granted (i : RecIdx)
  | retiring (i : RecIdx)
  | quiet
  | stray
  deriving DecidableEq, Repr

/-- The line of R102 and R103 a bay stands in. -/
def State.watch (s : State) (b : BayIdx) : BayWatch :=
  let y := s.bay b
  let rest : BayWatch := if y.calState ≠ .idle ∨ y.blockCause ≠ .none ∨ y.strayGrace = true then .quiet else .stray
  match y.record with
  | none => rest
  | some i =>
    match s.life i with
    | .granted _ _ => .granted i
    | .retiring _ _ _ _ => .retiring i
    | _ => rest

/-- A result above the limit in force plus the tolerance (R102, R103). -/
def State.overdraws (s : State) (b : BayIdx) (r : Nat) : Bool :=
  decide ((s.bay b).limitInForce + s.params.tolerance < r)

/-- The latest sample takes each scan and CONFIRM result (R101). -/
def State.latest (s : State) (b : BayIdx) (r : Nat) : State :=
  s.modBay b fun y => { y with latestSample := r }

/-- A scan result counted for the charge of the bay's live record (R113). -/
def State.countCharge (s : State) (b : BayIdx) (r : Nat) : State :=
  match (s.bay b).record with
  | none => s
  | some i =>
    if (s.life i).holdsLoad = false then s
    else
      s.modBay b fun y =>
        if y.sumOwner = some (s.handle i) then
          if 1000 ≤ y.periodCount then y else { y with periodSum := y.periodSum + r, periodCount := y.periodCount + 1 }
        else { y with sumOwner := some (s.handle i), periodSum := r, periodCount := 1 }

/-- A scan result of a bay judged (R102). -/
def State.judgeScan (s : State) (b : BayIdx) (r : Nat) : State :=
  match s.watch b with
  | .granted _ => if s.overdraws b r then s.requestConfirm (bayChannel b) else s
  | .retiring i => if r ≤ s.params.restThreshold then s.rampEnd i else s
  | .quiet => s
  | .stray => if s.params.strayThreshold < r then s.requestConfirm (bayChannel b) else s

/-- A strike on a GRANTED record; at the strike limit it enters RETIRING with OVERDRAW in the same step (R104, R105). -/
def State.strike (s : State) (i : RecIdx) : State :=
  match s.life i with
  | .granted t g =>
    let s1 := s.setLife i (.granted t { g with strikes := g.strikes + 1 })
    if g.strikes + 1 = s.params.strikeLimit then s1.enterRetiring i .overdraw else s1
  | _ => s

/-- A CONFIRM result of a bay judged (R103). -/
def State.judgeConfirm (s : State) (b : BayIdx) (r : Nat) : State :=
  match s.watch b with
  | .granted i => if s.overdraws b r then s.strike i else s
  | .retiring i => if r ≤ s.params.restThreshold then s.rampEnd i else s
  | .quiet => s
  | .stray => if s.params.strayThreshold < r then s.blockBay b .stray else s

/-- A FEED result above the effective ceiling plus the feed margin in RUNNING or HOLD (R111, R112). -/
def State.feedOver (s : State) (r : Nat) : Bool :=
  (s.alloc.opState == .running || s.alloc.opState == .hold) && decide (s.alloc.effCeiling + s.params.feedMargin < r)

/-! ### Calibration samples -/

/-- The quiet rule of settling: a scan result above the stray threshold ends the calibration NOT_QUIET (R120). -/
def State.quietRule (s : State) (b : BayIdx) (r : Nat) : State :=
  if (s.bay b).calState = .settling ∧ s.params.strayThreshold < r then s.endCalibration b .notQuiet else s

/-- The mean of eight results, rounding toward the lower integer (R122). -/
def calMean (sum : Int) : Int :=
  sum / 8

/-- Completion after the eighth result: a mean from -40 to +40 dA becomes the offset (R122). -/
def State.completeCalibration (s : State) (b : BayIdx) (sum : Int) : State :=
  if -40 ≤ calMean sum ∧ calMean sum ≤ 40 then
    (s.modBay b fun y => { y with offset := calMean sum }).endCalibration b .pass
  else s.endCalibration b .outOfRange

/-- A CALIBRATION result, a raw value, taken in the bay's state at that moment (R121); outside SAMPLING it is discarded (log 10). -/
def State.calSample (s : State) (b : BayIdx) (raw : Int) : State :=
  match (s.bay b).calState with
  | .sampling =>
    if (s.params.strayThreshold : Int) < raw then s.endCalibration b .notQuiet
    else if (s.bay b).samplesTaken + 1 = 8 then s.completeCalibration b ((s.bay b).sampleSum + raw)
    else
      (s.modBay b fun y => { y with samplesTaken := y.samplesTaken + 1, sampleSum := y.sampleSum + raw }).requestCalibration b
  | _ => s

/-! ### The thermal filter -/

/-- Whether a TEMP result replaces the filtered code: it is EMPTY or differs by more than the hysteresis width (R129). -/
def filterMoves (width : Nat) (filtered : Option Nat) (r : Nat) : Bool :=
  match filtered with
  | none => true
  | some f => decide (width < max f r - min f r)

/-- A scan result of TEMP; the zone is derived again after a result that changes the code (R129, R130). -/
def State.takeTemp (s : State) (r : Nat) : State :=
  if filterMoves s.params.hysteresis s.thermal.filtered r then
    { s with thermal := { s.thermal with filtered := some r } }.deriveZone
  else s

/-! ### Delivery and choice -/

/-- A scan result delivered (R97): the Draw Supervisor judges the bay as it stands, then the Calibration Unit applies its quiet rule
(log 19). -/
def State.deliverScan (s : State) (c : Channel) (r : Nat) : State :=
  match channelBay c with
  | some b => (((s.latest b r).countCharge b r).judgeScan b r).quietRule b r
  | none => if c = feedChannel then (if s.feedOver r then s.requestConfirm feedChannel else s) else s.takeTemp r

/-- A CONFIRM result delivered (R97, R103, R112). -/
def State.deliverConfirm (s : State) (c : Channel) (r : Nat) : State :=
  match channelBay c with
  | some b => (s.latest b r).judgeConfirm b r
  | none => if c = feedChannel ∧ s.feedOver r = true then s.enterTrip else s

/-- A conversion's result delivered by its kind and channel (R97). -/
def State.deliver (s : State) (v : Conversion) (raw : Int) : State :=
  match v.kind with
  | .scan => s.deliverScan v.channel (s.resultOf v.channel raw)
  | .confirm => s.deliverConfirm v.channel (s.resultOf v.channel raw)
  | .port => s.setHolder v.channel { ready := true, result := s.resultOf v.channel raw }
  | .calibration =>
    match channelBay v.channel with
    | some b => s.calSample b (rawOf v.channel raw)
    | none => s

/-- The channel after another in the scan, TEMP followed by B0 (R95). -/
def scanAfter (c : Channel) : Channel :=
  c + 1

/-- A scan conversion begins, which moves the scan channel (R95). -/
def Sampler.beginScan (sm : Sampler) : Sampler :=
  { sm with current := some { kind := .scan, channel := sm.scanChannel }, scanChannel := scanAfter sm.scanChannel }

/-- The next conversion: CALIBRATION, CONFIRM, PORT, the lowest channel first, else the scan channel; a request leaves the set when its
conversion begins (R94, R96). -/
def Sampler.choose (sm : Sampler) : Sampler :=
  match sm.calRequests with
  | c :: rest => { sm with current := some { kind := .calibration, channel := c }, calRequests := rest }
  | [] =>
    match sm.confirmRequests with
    | c :: rest => { sm with current := some { kind := .confirm, channel := c }, confirmRequests := rest }
    | [] =>
      match sm.portRequests with
      | c :: rest => { sm with current := some { kind := .port, channel := c }, portRequests := rest }
      | [] => sm.beginScan

/-- The conversion in progress; right after device reset the first one, a scan of the scan channel, begins (R95, log 8). -/
def State.converting (s : State) : State × Conversion :=
  match s.sampler.current with
  | some v => (s, v)
  | none => ({ s with sampler := s.sampler.beginScan }, { kind := .scan, channel := s.sampler.scanChannel })

/-- The next conversion is chosen and begins (R94). -/
def State.nextConversion (s : State) : State :=
  { s with sampler := s.sampler.choose }

/-- CONVERSION_END: the result is delivered and the next conversion is chosen (R94, R97). A request that the result raises takes part in the
choice, or, with `late`, arrives after it and waits for the end of the conversion chosen (R94, log 8). -/
def execConversionEnd (reading : Reading) (s : State) : Host.Outcome State Fault Refusal :=
  .next
    (if reading.late then s.converting.1.nextConversion.deliver s.converting.2 reading.raw
    else (s.converting.1.deliver s.converting.2 reading.raw).nextConversion)

end Sys2Proof.Machine
end

