-- ==== Sys2Proof/Machine/Edits.lean ====
section
/-!
DEFINITION. The edit window commands (R26, R177, R178, R180).
-/
namespace Sys2Proof.Machine

/-- The editable fields of a record (R26). -/
def Terms.copy (t : Terms) : EditCopy :=
  { cls := t.cls, requested := t.requested, floor := t.floor, mask := t.mask, value := t.value, leaseLength := t.leaseLength,
    taper := t.taper }

/-- The empty changed-field set (R26). -/
def ChangedFields.none : ChangedFields :=
  { cls := false, requested := false, floor := false, leaseLength := false, pattern := false, taper := false }

/-- EDIT.OPEN on a WAITING or GRANTED record (R177). -/
def State.openWindow (s : State) (i : RecIdx) (t : Terms) : State :=
  match s.pool.edit with
  | some _ => s.refuse .busy
  | none =>
    { s with
      pool := { s.pool with edit := some { handle := s.handle i, copy := t.copy, changed := ChangedFields.none, stale := false } }
      }.answer .ok t.copy.image

/-- EDIT.OPEN (R4, R177). -/
def execEditOpen (args : List Byte) (s : State) : Host.Outcome State Fault Refusal :=
  .next
    (s.handleArg args fun h s => s.withHandle h fun i s =>
      match s.life i with
      | .waiting t _ => s.openWindow i t
      | .granted t _ => s.openWindow i t
      | _ => s.refuse .state)

/-- A write into the copy of an OPEN window; with the window CLOSED the reply is STATE (R178). -/
def State.putWindow (s : State) (f : EditWindow → EditWindow) : State :=
  match s.pool.edit with
  | some w => { s with pool := { s.pool with edit := some (f w) } }.ok
  | none => s.refuse .state

/-- EDIT.PUT (R175, R178): a field or value out of range replies BAD_ARG before the window is looked at. -/
def execEditPut (args : List Byte) (s : State) : Host.Outcome State Fault Refusal :=
  .next
    (match args with
    | [field, hi, lo] =>
      match (EditCopy.put Terms.absent.copy field hi lo).isSome with
      | true => s.putWindow fun w => { w with copy := (w.copy.put field hi lo).getD w.copy, changed := w.changed.put field }
      | false => s.refuse .badArg
    | _ => s.refuse .badArg)

/-- EDIT.TAPER (R175, R178). -/
def execEditTaper (args : List Byte) (s : State) : Host.Outcome State Fault Refusal :=
  .next
    (match taperArg? args with
    | some l => s.putWindow fun w => { w with copy := { w.copy with taper := l }, changed := { w.changed with taper := true } }
    | none => s.refuse .badArg)

/-- The window is CLOSED (R26). -/
def State.closeWindow (s : State) : State :=
  { s with pool := { s.pool with edit := none } }

/-- Whether the changed-field set holds some field (R180). -/
def ChangedFields.any (c : ChangedFields) : Bool :=
  c.cls || c.requested || c.floor || c.leaseLength || c.pattern || c.taper

/-- A commit that passed its checks applies its change, which reaches the record under the window and marks it STALE with EDIT_STALE raised,
and closes the window (R25, R179, R180, log 5). -/
def State.commitChange (s : State) (i : RecIdx) (w : EditWindow) : State :=
  ((s.applyChange i w.changed w.copy).markStale i).closeWindow

/-- EDIT.COMMIT of an OPEN window that is not STALE and carries a change (R24, R180). -/
def State.commitWindow (s : State) (w : EditWindow) : State :=
  match s.resolve w.handle with
  | some i =>
    match (s.life i).refuses w.changed w.copy with
    | some code => s.closeWindow.refuse code
    | none => (s.commitChange i w).ok
  | none => s.closeWindow.refuse .stale

/-- EDIT.COMMIT (R180). -/
def execEditCommit (args : List Byte) (s : State) : Host.Outcome State Fault Refusal :=
  .next
    (s.noArgs args fun s =>
      match s.pool.edit with
      | none => s.refuse .state
      | some w =>
        if w.stale then s.closeWindow.refuse .stale
        else if w.changed.any = false then s.closeWindow.ok
        else s.commitWindow w)

/-- EDIT.DROP (R177). -/
def execEditDrop (args : List Byte) (s : State) : Host.Outcome State Fault Refusal :=
  .next
    (s.noArgs args fun s =>
      match s.pool.edit with
      | some _ => s.closeWindow.ok
      | none => s.refuse .state)

end Sys2Proof.Machine
end

