-- ==== Sys2Proof/Machine/Monitor.lean ====
section
/-!
DEFINITION. The Clock Monitor: CHECK_WINDOW_END (R146 to R151), CLOCK.RETURN (R149) and CLOCK.READ (R153).
-/
namespace Sys2Proof.Machine

/-- The count of a check window stops at 65,535 (R146). -/
def cycleTop : Nat := 65535

/-- A window's count, saturated (R146). -/
def Clock.windowCount (c : Clock) (cycles : Nat) : Nat :=
  min cycleTop (c.windowCycles + cycles)

/-- A window is good when its count lies in the band, both ends included (R146). -/
def windowGood (p : Params) (count : Nat) : Bool :=
  decide (p.bandLow ≤ count) && decide (count ≤ p.bandHigh)

/-- The window ends: its count is latched and valid, and the next window begins (R146). -/
def Clock.latch (c : Clock) (count : Nat) : Clock :=
  { c with latestCount := count, countValid := true, windowTicks := 0, windowCycles := 0, windowFresh := true }

/-- The return is over, cancelled or completed, or none was pending (R148, R150). -/
def Clock.noReturn (c : Clock) : Clock :=
  { c with returnPending := false, goodWindows := 0, windowPredatesReturn := false }

/-- A loss of the reference (R148). -/
def State.clockLoss (s : State) : State :=
  ({ s with clock := { s.clock.noReturn with state := .fallback } }.raise flagClock).setHoldClock

/-- A pending return is cancelled (R150). -/
def State.returnCancel (s : State) : State :=
  { s with clock := s.clock.noReturn }.raise flagClock

/-- A return completes (R150). -/
def State.returnComplete (s : State) : State :=
  ({ s with clock := { s.clock.noReturn with state := .reference } }.raise flagClock).clearHoldClock

/-- A window judged in FALLBACK (R149, R150). -/
def State.judgeFallback (s : State) (good : Bool) : State :=
  if s.clock.returnPending = false then s
  else if s.clock.windowPredatesReturn then { s with clock := { s.clock with windowPredatesReturn := false } }
  else if good = false then s.returnCancel
  else if s.clock.goodWindows = 0 then { s with clock := { s.clock with goodWindows := 1 } }
  else s.returnComplete

/-- The judgment of a window handed to the clock state in force (R146, R147, R148, R150). -/
def State.judgeWindow (s : State) (good : Bool) : State :=
  match s.clock.state with
  | .starting => if good then { s with clock := { s.clock with state := .reference } } else s
  | .reference => if good then s else s.clockLoss
  | .fallback => s.judgeFallback good

/-- CHECK_WINDOW_END: the 256th tick of the window, in which `cycles` reference cycles arrived (R146). -/
def execCheckWindowEnd (cycles : Nat) (s : State) : Host.Outcome State Fault Refusal :=
  .next
    ({ s with clock := s.clock.latch (s.clock.windowCount cycles) }.judgeWindow
      (windowGood s.params (s.clock.windowCount cycles)))

/-- A CLOCK.RETURN that reached the Clock Monitor together with the end of a check window, and was taken after it: the window that end began is
the first one that counts (R149). No signal period can have begun since that end (log 13). -/
def Clock.returnsWithEnd (c : Clock) (together : Bool) : Bool :=
  together && c.windowFresh

/-- CLOCK.RETURN (R149): the window in progress at the command does not count, unless the command came together with its beginning. -/
def execClockReturn (arrival : ReturnArrival) (s : State) : Host.Outcome State Fault Refusal :=
  .next
    (s.noArgs arrival.args fun s =>
      if s.clock.state ≠ .fallback then s.refuse .state
      else if s.clock.returnPending then s.refuse .busy
      else
        { s with clock := { s.clock with
          returnPending := true, goodWindows := 0, windowPredatesReturn := !s.clock.returnsWithEnd arrival.together } }.ok)

/-- CLOCK.READ (R153). -/
def execClockRead (args : List Byte) (s : State) : Host.Outcome State Fault Refusal :=
  .next (s.noArgs args fun s => s.answer .ok s.clockImage)

end Sys2Proof.Machine
end

