-- ==== Sys2Proof/Machine/Operating.lean ====
section
/-!
DEFINITION. The operating states: device reset and the six commands of chapter 9 (R154 to R159).
-/
namespace Sys2Proof.Machine

/-- DEVICE_RESET: the reset values of every block, any transaction in progress discarded (R27, R32, R54, R90, R95, R100, R101, R116, R128,
R134, R145, R154, R160, R161, R165, R174, R181). The queue of waiting commands is not the part's. -/
def execDeviceReset (s : State) : Host.Outcome State Fault Refusal :=
  .next { State.reset with pending := s.pending }

/-- START taken in STANDBY (R155): timer at count 0 and position 0, close counts 0, close window loaded, and the state entered; with a
CRITICAL zone that state is left for TRIP at once and no pass runs (R141). -/
def State.startUp (s : State) : State :=
  let s1 := { s with
    timer := { Timer.reset with running := true }
    closeWindowLeft := s.params.closeWindow }
  let s2 := s1.modBays fun y => { y with closeCount := 0 }
  if s.thermal.zone = .critical then s2.enterTrip else s2.enterWork

/-- START (R155). -/
def execStart (args : List Byte) (s : State) : Host.Outcome State Fault Refusal :=
  .next (s.noArgs args fun s => if s.alloc.opState = .standby then s.startUp.ok else s.refuse .state)

/-- The timer stopped at count 0 and position 0 (R57). -/
def Timer.stopped : Timer :=
  Timer.reset

/-- STOP taken outside STANDBY (R156): STANDBY, the timer stopped, the WAITING records waiting with HOLD. Parts of a boundary already raised
are taken first (log 3). -/
def State.shutDown (s : State) : State :=
  let s1 := s.finishBoundary
  { s1 with timer := Timer.stopped, alloc := { s1.alloc with opState := .standby } }.setAllWaitReasons .hold

/-- STOP (R156). -/
def execStop (args : List Byte) (s : State) : Host.Outcome State Fault Refusal :=
  .next
    (s.noArgs args fun s =>
      if s.alloc.opState = .standby then s.ok
      else if s.anyHoldsLoad then s.refuse .state
      else s.shutDown.ok)

/-- RESTART frees a record that is not FREE; its generation advances, 1023 followed by 0 (R28). -/
def Record.freed (r : Record) : Record :=
  match r.life with
  | .free => r
  | _ => { generation := r.generation + 1, life := .free }

/-- The pool after RESTART: the freed records at the tail of the free list in ascending order, the window CLOSED (R8, R28). -/
def Pool.restarted (p : Pool) : Pool :=
  { records := Vector.ofFn fun i => (p.records.get i).freed
    freeList := p.freeList ++ allRecords.filter fun i => (p.records.get i).life != .free
    edit := none }

/-- The Allocator after RESTART: ceiling, effective ceiling and the CLOCK hold reason kept (R32, R33, R134, R159). -/
def Allocator.restarted (a : Allocator) : Allocator :=
  { a with
    loads := Vector.replicate 64 0, waitQueue := [], grantOrder := [], opState := .standby, holdPort := false, reclaiming := false,
    passDue := false }

/-- A bay's entry after RESTART (R7, R9, R91, R101, R126, R159): gate, presence, miss count, in-effect duty and offset kept. -/
def Bay.restarted (y : Bay) : Bay :=
  let z := y.openEnable
  { z with
    record := none, lastSpent := none, events := EventSet.empty, answer := none, limit := 0, stagedDuty := 0, decreaseGrace := none,
    closeCount := 0, blockCause := .none, latestSample := 0, periodSum := 0, periodCount := 0, sumOwner := none, calState := .idle,
    lastResult := if y.calState = .idle then y.lastResult else .aborted
    settleLeft := 0, samplesTaken := 0, sampleSum := 0 }

/-- RESTART (R28, R159), block by block; parts of a boundary already raised are taken first (log 3). -/
def State.restarted (s : State) : State :=
  let s1 := s.finishBoundary
  { s1.modBays Bay.restarted with
    pool := s1.pool.restarted
    alloc := s1.alloc.restarted
    timer := Timer.stopped
    sampler := { s1.sampler with calRequests := [], confirmRequests := [] }
    attention := { s1.attention with flags := Vector.replicate 22 .lowered } }

/-- RESTART (R159). -/
def execRestart (args : List Byte) (s : State) : Host.Outcome State Fault Refusal :=
  .next (s.noArgs args fun s => s.restarted.ok)

/-- HOLD.SET (R157); with PORT already set nothing changes. -/
def execHoldSet (args : List Byte) (s : State) : Host.Outcome State Fault Refusal :=
  .next (s.noArgs args fun s => (if s.alloc.holdPort then s else s.setHoldPort).ok)

/-- HOLD.CLEAR (R157); with PORT already clear nothing changes. -/
def execHoldClear (args : List Byte) (s : State) : Host.Outcome State Fault Refusal :=
  .next (s.noArgs args fun s => (if s.alloc.holdPort then s.clearHoldPort else s).ok)

/-- RESUME (R158): taken in TRIP outside a CRITICAL zone. -/
def execResume (args : List Byte) (s : State) : Host.Outcome State Fault Refusal :=
  .next
    (s.noArgs args fun s =>
      if s.alloc.opState = .trip ∧ s.thermal.zone ≠ .critical then s.enterWork.ok else s.refuse .state)

end Sys2Proof.Machine
end

