-- ==== Sys2Proof/Machine/Pass.lean ====
section
/-!
DEFINITION. The admission pass: the walk of the wait queue, admission, squeeze and restore (R34, R39 to R50).
-/
namespace Sys2Proof.Machine

/-! ### Passing over and admission -/

/-- The first condition of R41 that holds of a record's bay, with its wait reason. -/
def State.passOver (s : State) (b : BayIdx) : Option WaitReason :=
  let y := s.bay b
  if y.blockCause ≠ .none then some .blocked
  else if y.calState ≠ .idle then some .calibrating
  else if y.gate = .shut then some .gated
  else if s.params.closeLimit ≤ y.closeCount then some .closeLimit
  else none

/-- The grant of a record just admitted (R43, R66). -/
def State.admittedGrant (s : State) (t : Terms) (g : Nat) : Grant :=
  { active := 0, staged := g, leaseLeft := if t.leaseLength = 0 then none else some t.leaseLength, taperState := taperSetUp t.taper,
    strikes := 0, strikeWindowLeft := s.params.strikeWindow }

/-- Admission of a WAITING record with grant `g` (R43): GRANTED with its load, moved from the wait queue to the tail of the grant order list,
its bay's enable closed, ADMITTED added, and a window on it overtaken. -/
def State.admission (s : State) (i : RecIdx) (t : Terms) (g : Nat) : State :=
  let s1 := s.become i (.granted t (s.admittedGrant t g))
  let s2 := { s1 with alloc := { s1.alloc with
    waitQueue := s1.alloc.waitQueue.filter (· ≠ i), grantOrder := s1.alloc.grantOrder ++ [i] } }
  ((s2.modBay t.bay Bay.closeEnable).addEvent t.bay .admitted).markStale i

/-- The least room a record is admitted with: the larger of its floor and 1 (R42). -/
def Terms.need (t : Terms) : Nat :=
  max t.floor 1

/-! ### Squeeze -/

/-- What a record counts in the projected load of a position, with the records in `lowered` at their floor (R34, R46). -/
def State.projectedAt (s : State) (lowered : List RecIdx) (p : Position) (i : RecIdx) : Nat :=
  match s.life i with
  | .granted t g => if t.onAt p then (if lowered.contains i then t.floor else g.staged) else 0
  | .retiring t a _ _ => if t.onAt p then a else 0
  | _ => 0

/-- The projected load of a position (R34). -/
def State.projectedLoad (s : State) (lowered : List RecIdx) (p : Position) : Nat :=
  (allRecords.map (s.projectedAt lowered p)).sum

/-- The projected room of a record (R34). -/
def State.projectedRoom (s : State) (lowered : List RecIdx) (t : Terms) : Nat :=
  roomUnder s.alloc.effCeiling t (s.projectedLoad lowered)

/-- Two patterns are on together in some position (R45). -/
def Terms.meets (t u : Terms) : Bool :=
  allPositions.any fun p => t.onAt p && u.onAt p

/-- The candidates of a squeeze for a budget-blocked record, in order (R45). -/
def State.candidates (s : State) (t : Terms) : List RecIdx :=
  s.victims.filter fun i =>
    match s.life i with
    | .granted u g => decide (u.cls < t.cls) && decide (u.floor < g.staged) && t.meets u
    | _ => false

/-- The candidates to lower, taken in order until the record fits; none when it does not fit after every one (R46). -/
def State.squeezeSet (s : State) (t : Terms) : List RecIdx → List RecIdx → Option (List RecIdx)
  | _, [] => none
  | taken, c :: cs =>
    let now := taken ++ [c]
    if t.need ≤ s.projectedRoom now t then some now else State.squeezeSet s t now cs

/-- One lowered candidate: its staged grant becomes its floor, and a window on it is overtaken (R46, R47). -/
def State.lowerToFloor (s : State) (i : RecIdx) : State :=
  match s.life i with
  | .granted t _ => (s.stage i t.floor).markStale i
  | _ => s

/-- The squeeze for a budget-blocked record (R45, R46). -/
def State.squeeze (s : State) (t : Terms) : State :=
  if s.params.squeezeClasses.getLsbD t.cls.val = false then s
  else if t.need ≤ s.projectedRoom [] t then s
  else
    match s.squeezeSet t [] (s.candidates t) with
    | some l => l.foldl State.lowerToFloor s
    | none => s

/-! ### The walk -/

/-- The walk of the queue entries in order (R41, R42); the Boolean says whether it stopped at a budget-blocked record. -/
def State.walk : List RecIdx → State → State × Bool
  | [], s => (s, false)
  | i :: rest, s =>
    match s.life i with
    | .waiting t _ =>
      match s.passOver t.bay with
      | some r => State.walk rest (s.setWaitReason i r)
      | none =>
        if t.need ≤ s.room t then State.walk rest (s.admission i t (min t.requested (s.room t)))
        else (((i :: rest).foldl (fun s j => s.setWaitReason j .budget) s).squeeze t, true)
    | _ => State.walk rest s

/-! ### Restore -/

/-- The GRANTED records, class descending and, within a class, oldest first by the grant order list read from the head (R49). -/
def State.restoreOrder (s : State) : List RecIdx :=
  [3, 2, 1, 0].flatMap fun (c : Fin 4) => s.alloc.grantOrder.filter fun i => s.classOf i = c

/-- One record of the restore pass: raised toward its requested value within its room; a raise overtakes a window on it (R49, R50). -/
def State.restoreOne (s : State) (i : RecIdx) : State :=
  match s.life i with
  | .granted t g =>
    let up := min (t.requested - g.staged) (s.room t)
    if up = 0 then s else (s.stage i (g.staged + up)).markStale i
  | _ => s

/-- The restore pass (R49). -/
def State.restore (s : State) : State :=
  s.restoreOrder.foldl State.restoreOne s

/-- One admission pass (R40, R42): the walk, then the restore pass unless the walk stopped. Triggers taken meanwhile leave one pass due. -/
def State.pass (s : State) : State :=
  let s1 := { s with alloc := { s.alloc with passDue := false } }
  let r := State.walk s1.alloc.waitQueue s1
  if r.2 then r.1 else r.1.restore

/-- ADMISSION_PASS: the pass that answers the triggers taken since the last one. In a state other than RUNNING, or while reclaiming, it does
not run and the triggers are dropped; with none due there is no pass (R39, R40, R136, R141, log 4). -/
def execAdmissionPass (s : State) : Host.Outcome State Fault Refusal :=
  .next
    (if s.alloc.passDue = false then s
    else if s.alloc.opState = .running ∧ s.alloc.reclaiming = false then s.pass
    else { s with alloc := { s.alloc with passDue := false } })

end Sys2Proof.Machine
end

