-- ==== Sys2Proof/Machine/Records.lean ====
section
/-!
DEFINITION. The record commands of the Host Port: ALLOC, the lookups, RETIRE in both modes, RECLAIM and RENEW (R4, R11, R17, R18, R22, R23, R63).
-/
namespace Sys2Proof.Machine

/-- ALLOC for a bay with checked arguments: BAY_TAKEN, then NO_RECORD with POOL_FULL raised, else a PORT record (R11). -/
def State.allocFor (s : State) (b : BayIdx) (r : Request) : State :=
  if (s.bay b).record.isSome then s.refuse .bayTaken
  else
    match s.pool.freeList with
    | [] => (s.raise flagPoolFull).refuse .noRecord
    | i :: rest => (s.create i rest (r.terms b .port)).answer .ok (be16 (s.handle i))

/-- ALLOC (R11). -/
def execAlloc (args : List Byte) (s : State) : Host.Outcome State Fault Refusal :=
  .next
    (match args with
    | [b, cls, rh, rl, fh, fl, lease, mask, value] =>
      if hb : b.toNat < 16 then
        match requestOf? cls.toNat (u16 rh rl) (u16 fh fl) lease.toNat mask.toNat value.toNat with
        | some r => s.allocFor ⟨b.toNat, hb⟩ r
        | none => s.refuse .badArg
      else s.refuse .badArg
    | _ => s.refuse .badArg)

/-- The lookup of a record (R23). -/
def State.lookup (s : State) (i : RecIdx) : State :=
  s.answer .ok (recordImage (s.handle i) (s.life i))

/-- LOOKUP.HANDLE (R4, R23): a FREE record is reported as FREE. -/
def execLookupHandle (args : List Byte) (s : State) : Host.Outcome State Fault Refusal :=
  .next (s.handleArg args fun h s => s.withHandle h fun i s => s.lookup i)

/-- LOOKUP.BAY (R23). -/
def execLookupBay (args : List Byte) (s : State) : Host.Outcome State Fault Refusal :=
  .next
    (s.bayArg args fun b s =>
      match (s.bay b).record with
      | some i => s.lookup i
      | none => s.refuse .noRecord)

/-- RETIRE GRACEFUL of a resolved record (R4, R17). -/
def State.retireGraceful (s : State) (i : RecIdx) : State :=
  match s.life i with
  | .waiting _ _ => (s.enterSpent i .withdrawn false).ok
  | .granted _ _ => (s.enterRetiring i .retiredByPort).ok
  | .retiring _ _ _ _ => s.ok
  | .free => s.refuse .state
  | .spent _ _ _ => s.refuse .state

/-- RETIRE IMMEDIATE of a resolved record (R4, R18). -/
def State.retireImmediate (s : State) (i : RecIdx) : State :=
  match s.life i with
  | .waiting _ _ => (s.enterSpent i .withdrawn false).ok
  | .granted _ _ => (s.enterSpent i .retiredByPort false).ok
  | .retiring _ _ c _ => (s.enterSpent i c false).ok
  | .free => s.refuse .state
  | .spent _ _ _ => s.refuse .state

/-- A RETIRE as its bytes say: handle (2) and mode, 0 GRACEFUL, 1 IMMEDIATE; the mode is checked before the handle (R4, R17, R184). -/
def State.retire (s : State) (args : List Byte) : State :=
  match args with
  | [hi, lo, mode] =>
    if mode.toNat = 0 then s.withHandle (u16 hi lo) fun i s => s.retireGraceful i
    else if mode.toNat = 1 then s.withHandle (u16 hi lo) fun i s => s.retireImmediate i
    else s.refuse .badArg
  | _ => s.refuse .badArg

/-- RETIRE_GRACEFUL: a RETIRE that does not name mode IMMEDIATE (R17). -/
def execRetireGraceful (args : List Byte) (s : State) : Host.Outcome State Fault Refusal :=
  .next (s.retire args)

/-- RETIRE_IMMEDIATE: a RETIRE with mode IMMEDIATE (R18). -/
def execRetireImmediate (args : List Byte) (s : State) : Host.Outcome State Fault Refusal :=
  .next (s.retire args)

/-- RECLAIM of a SPENT record: it becomes FREE at the tail of the free list with its generation advanced; the bay's last spent handle is
reset when it names the reclaimed life (R9, R22, R179). -/
def State.reclaimRecord (s : State) (i : RecIdx) (b : BayIdx) : State :=
  let s1 := s.modBay b fun y => if y.lastSpent = some (s.handle i) then { y with lastSpent := none } else y
  let s2 := s1.setRecord i { generation := (s.record i).generation + 1, life := .free }
  { s2 with pool := { s2.pool with freeList := s2.pool.freeList ++ [i] } }.markStale i

/-- RECLAIM (R4, R22). -/
def execReclaim (args : List Byte) (s : State) : Host.Outcome State Fault Refusal :=
  .next
    (s.handleArg args fun h s => s.withHandle h fun i s =>
      match s.life i with
      | .spent t _ _ => (s.reclaimRecord i t.bay).ok
      | _ => s.refuse .state)

/-- RENEW from the Host Port (R4, R63). -/
def execRenew (args : List Byte) (s : State) : Host.Outcome State Fault Refusal :=
  .next
    (s.handleArg args fun h s => s.withHandle h fun i s =>
      match s.life i with
      | .waiting _ _ => s.ok
      | .granted _ _ => (s.reloadLease i).ok
      | _ => s.refuse .state)

end Sys2Proof.Machine
end

