-- ==== Sys2Proof/Machine/Dispatch.lean ====
section
/-!
DEFINITION. One arm per command or event, each one call of its meaning.
-/
namespace Sys2Proof.Machine

def exec (i : Instr) (s : State) : Host.Outcome State Fault Refusal :=
  match i with
  | .deviceReset => Sys2Proof.Machine.execDeviceReset s
  | .start args => Sys2Proof.Machine.execStart args s
  | .stop args => Sys2Proof.Machine.execStop args s
  | .restart args => Sys2Proof.Machine.execRestart args s
  | .holdSet args => Sys2Proof.Machine.execHoldSet args s
  | .holdClear args => Sys2Proof.Machine.execHoldClear args s
  | .resume args => Sys2Proof.Machine.execResume args s
  | .configWrite args => Sys2Proof.Machine.execConfigWrite args s
  | .configRead args => Sys2Proof.Machine.execConfigRead args s
  | .ceilingWrite args => Sys2Proof.Machine.execCeilingWrite args s
  | .bayGate args => Sys2Proof.Machine.execBayGate args s
  | .alloc args => Sys2Proof.Machine.execAlloc args s
  | .lookupHandle args => Sys2Proof.Machine.execLookupHandle args s
  | .lookupBay args => Sys2Proof.Machine.execLookupBay args s
  | .retireGraceful args => Sys2Proof.Machine.execRetireGraceful args s
  | .retireImmediate args => Sys2Proof.Machine.execRetireImmediate args s
  | .reclaim args => Sys2Proof.Machine.execReclaim args s
  | .renew args => Sys2Proof.Machine.execRenew args s
  | .editOpen args => Sys2Proof.Machine.execEditOpen args s
  | .editPut args => Sys2Proof.Machine.execEditPut args s
  | .editTaper args => Sys2Proof.Machine.execEditTaper args s
  | .editCommit args => Sys2Proof.Machine.execEditCommit args s
  | .editDrop args => Sys2Proof.Machine.execEditDrop args s
  | .queueRead args => Sys2Proof.Machine.execQueueRead args s
  | .orderRead args => Sys2Proof.Machine.execOrderRead args s
  | .loadRead args => Sys2Proof.Machine.execLoadRead args s
  | .bayRead args => Sys2Proof.Machine.execBayRead args s
  | .bayUnblock args => Sys2Proof.Machine.execBayUnblock args s
  | .calStart args => Sys2Proof.Machine.execCalStart args s
  | .sampleRequest args => Sys2Proof.Machine.execSampleRequest args s
  | .sampleRead args => Sys2Proof.Machine.execSampleRead args s
  | .clockReturn arrival => Sys2Proof.Machine.execClockReturn arrival s
  | .clockRead args => Sys2Proof.Machine.execClockRead args s
  | .flagsRead args => Sys2Proof.Machine.execFlagsRead args s
  | .flagsClear args => Sys2Proof.Machine.execFlagsClear args s
  | .flagsEnable args => Sys2Proof.Machine.execFlagsEnable args s
  | .identRead args => Sys2Proof.Machine.execIdentRead args s
  | .badCommand code args => Sys2Proof.Machine.execBadCommand code args s
  | .transactionAbort sent => Sys2Proof.Machine.execTransactionAbort sent s
  | .pollSend => Sys2Proof.Machine.execPollSend s
  | .replyWindowExpiry => Sys2Proof.Machine.execReplyWindowExpiry s
  | .badFrame => Sys2Proof.Machine.execBadFrame s
  | .foreignFrame => Sys2Proof.Machine.execForeignFrame s
  | .reportNone => Sys2Proof.Machine.execReportNone s
  | .ask cls requested floor lease mask value => Sys2Proof.Machine.execAsk cls requested floor lease mask value s
  | .change handle requested floor => Sys2Proof.Machine.execChange handle requested floor s
  | .linkRenew handle => Sys2Proof.Machine.execLinkRenew handle s
  | .release handle => Sys2Proof.Machine.execRelease handle s
  | .admissionPass => Sys2Proof.Machine.execAdmissionPass s
  | .periodBoundary later => Sys2Proof.Machine.execPeriodBoundary later s
  | .leaseEnd r => Sys2Proof.Machine.execLeaseEnd r s
  | .taperStepAdvance r => Sys2Proof.Machine.execTaperStepAdvance r s
  | .taperEnd r => Sys2Proof.Machine.execTaperEnd r s
  | .rampTimeout r => Sys2Proof.Machine.execRampTimeout r s
  | .strikeWindowEnd r => Sys2Proof.Machine.execStrikeWindowEnd r s
  | .closeWindowEnd => Sys2Proof.Machine.execCloseWindowEnd s
  | .settleEnd b => Sys2Proof.Machine.execSettleEnd b s
  | .signalPeriodStart => Sys2Proof.Machine.execSignalPeriodStart s
  | .conversionEnd reading => Sys2Proof.Machine.execConversionEnd reading s
  | .checkWindowEnd cycles => Sys2Proof.Machine.execCheckWindowEnd cycles s
  | .millisecondTick => Sys2Proof.Machine.execMillisecondTick s

end Sys2Proof.Machine
end

