-- ==== Sys2Proof/Safety.lean ====
section
/-!
DEFINITION. What stays true of the part step after step: each predicate is one sentence of the spec over one group of state, and is
kept by every step together with the predicates its docstring names. Beside them, the transitions many commands share, the admission pass and
the reclaim step, as relations between the state before and the state after.
-/
namespace Sys2Proof.Machine

/-! ### Record states -/

/-- The record waits (R1). -/
def Life.isWaiting : Life → Bool
  | .waiting _ _ => true
  | _ => false

/-- The record is granted (R1). -/
def Life.isGranted : Life → Bool
  | .granted _ _ => true
  | _ => false

/-- The terms of a record that is WAITING, GRANTED or RETIRING: the states in which its bay names it (R7). -/
def Life.liveTerms? : Life → Option Terms
  | .waiting t _ => some t
  | .granted t _ => some t
  | .retiring t _ _ _ => some t
  | .free => none
  | .spent _ _ _ => none

/-! ### Record Pool and lists -/

/-- R6, R8: the free list holds each FREE record once and no other. -/
def State.FreeListExact (s : State) : Prop :=
  s.pool.freeList.Nodup ∧ ∀ i, i ∈ s.pool.freeList ↔ s.life i = .free

/-- R6, R35: the wait queue holds each WAITING record once and no other, in class-descending order. With FreeListExact. -/
def State.WaitQueueExact (s : State) : Prop :=
  s.alloc.waitQueue.Nodup ∧ (∀ i, i ∈ s.alloc.waitQueue ↔ (s.life i).isWaiting = true) ∧
    s.alloc.waitQueue.Pairwise fun i j => s.classOf j ≤ s.classOf i

/-- R6, R38: the grant order list holds each GRANTED record once and no other. With FreeListExact. -/
def State.GrantOrderExact (s : State) : Prop :=
  s.alloc.grantOrder.Nodup ∧ ∀ i, i ∈ s.alloc.grantOrder ↔ (s.life i).isGranted = true

/-- R6: every record is in the one collection its state calls for. -/
def State.ListsExact (s : State) : Prop :=
  s.FreeListExact ∧ s.WaitQueueExact ∧ s.GrantOrderExact

/-- R7: a bay's entry names exactly the WAITING, GRANTED or RETIRING record of the bay, or none when there is none. With FreeListExact. -/
def State.BaysExact (s : State) : Prop :=
  ∀ b i, (s.bay b).record = some i ↔ (s.life i).liveTerms?.map Terms.bay = some b

/-- R1, R25, R34: floor ≤ staged grant ≤ requested for every GRANTED record, and for every record with terms floor ≤ requested and a pattern value
within the pattern mask. -/
def State.GrantsWithinTerms (s : State) : Prop :=
  ∀ i, (∀ t, (s.life i).terms? = some t → t.floor ≤ t.requested ∧ (t.value &&& ~~~t.mask) = 0#6) ∧
    ∀ t g, s.life i = .granted t g → t.floor ≤ g.staged ∧ g.staged ≤ t.requested

/-- R180: the record under an open window that is not STALE is WAITING or GRANTED under the generation of the window's handle. -/
def State.EditWindowExact (s : State) : Prop :=
  ∀ w, s.pool.edit = some w → w.stale = false →
    ∃ i, s.resolve w.handle = some i ∧ ((s.life i).isWaiting = true ∨ (s.life i).isGranted = true)

/-! ### Allocator -/

/-- R29: each load is the sum of the contributions of the records on in its position. With FreeListExact. -/
def State.LoadsExact (s : State) : Prop :=
  ∀ p, s.load p = (allRecords.map fun i => (s.life i).loadAt p).sum

/-- R134: the Allocator is reclaiming exactly while some load exceeds the effective ceiling. -/
def State.ReclaimExact (s : State) : Prop :=
  s.alloc.reclaiming = true ↔ ∃ p, s.alloc.effCeiling < s.load p

/-- R154: outside STANDBY and TRIP the state is HOLD while either hold reason is set and RUNNING while both are clear. -/
def State.HoldsExact (s : State) : Prop :=
  (s.alloc.opState = .running → s.alloc.holdPort = false ∧ s.alloc.holdClock = false) ∧
    (s.alloc.opState = .hold → s.alloc.holdPort = true ∨ s.alloc.holdClock = true)

/-! ### Configuration, timer and clocks -/

/-- R161: every parameter lies in its range and the orderings between parameters hold. -/
def Params.Legal (p : Params) : Prop :=
  (20 ≤ p.periodLength ∧ p.periodLength ≤ 1000) ∧ p.tolerance ≤ 50 ∧ (1 ≤ p.strikeLimit ∧ p.strikeLimit ≤ 15) ∧
    (1 ≤ p.strikeWindow ∧ p.strikeWindow ≤ 255) ∧ (1 ≤ p.closeLimit ∧ p.closeLimit ≤ 15) ∧
    (1 ≤ p.closeWindow ∧ p.closeWindow ≤ 4095) ∧ (1 ≤ p.retireTimeout ∧ p.retireTimeout ≤ 63) ∧
    (1 ≤ p.restThreshold ∧ p.restThreshold ≤ 20) ∧ (1 ≤ p.strayThreshold ∧ p.strayThreshold ≤ 50) ∧ p.feedMargin ≤ 200 ∧
    (p.warmCode < p.hotCode ∧ p.hotCode < p.criticalCode ∧ p.criticalCode ≤ 63) ∧ (1 ≤ p.hysteresis ∧ p.hysteresis ≤ 2) ∧
    (1 ≤ p.calSettle ∧ p.calSettle ≤ 15) ∧ (1 ≤ p.bandLow ∧ p.bandLow < p.bandHigh ∧ p.bandHigh ≤ 65534)

/-- R54, R55, R57: the millisecond count stays below the period length, the timer runs in RUNNING, HOLD and TRIP and stands still at count 0
and position 0 in STANDBY, where no part of a boundary is outstanding. With Params.Legal. -/
def State.TimerExact (s : State) : Prop :=
  s.timer.ms < s.params.periodLength ∧ (s.timer.running = true ↔ s.alloc.opState ≠ .standby) ∧
    (s.timer.running = false →
      s.timer = { running := false, ms := 0, position := 0, outstanding := [], found := Vector.replicate 16 none })

/-- R33, R130: the zone is the one the filtered code and the three codes give, and the effective ceiling is the ceiling reduced by the
zone's factor. -/
def State.ThermalExact (s : State) : Prop :=
  s.thermal.zone = zoneOf s.params s.thermal.filtered ∧ s.alloc.effCeiling = s.alloc.ceiling * s.thermal.zone.factor / 100

/-- R145, R148 to R151: the hold reason CLOCK is set exactly in FALLBACK, and a return is pending, and good windows are counted, only there. -/
def State.ClockExact (s : State) : Prop :=
  (s.alloc.holdClock = true ↔ s.clock.state = .fallback) ∧ (s.clock.returnPending = true → s.clock.state = .fallback) ∧
    s.clock.goodWindows ≤ 1 ∧ (s.clock.returnPending = false → s.clock.goodWindows = 0)

/-! ### Bays -/

/-- R72, R82: the staged duty of every bay is the duty of its limit value, floor(limit × 1000 / 630). -/
def State.DutiesExact (s : State) : Prop :=
  ∀ b, (s.bay b).stagedDuty = (s.bay b).limit * 1000 / 630

/-- R74, R75, R80, R83: a bay's enable is CLOSED exactly while its entry names a GRANTED or RETIRING record; with it OPEN the limit is 0 and
there is no decrease grace; the limit is at most the active grant of the GRANTED record named and 0 without one. With BaysExact and
FreeListExact. -/
def State.OutputsExact (s : State) : Prop :=
  ∀ b, ((s.bay b).enable = .closed ↔ (s.bayLife b).map Life.holdsLoad = some true) ∧
    ((s.bay b).enable = .opened → (s.bay b).limit = 0 ∧ (s.bay b).decreaseGrace = none) ∧
    (∀ t g, s.bayLife b = some (.granted t g) → (s.bay b).limit ≤ g.active) ∧
    ((s.bayLife b).map Life.isGranted ≠ some true → (s.bay b).limit = 0)

/-- R75: an enable is CLOSED only outside STANDBY and TRIP and on a bay that is neither blocked nor calibrating. With OutputsExact,
BaysExact and FreeListExact. -/
def State.ClosedBaysClear (s : State) : Prop :=
  ∀ b, (s.bay b).enable = .closed →
    (s.alloc.opState = .running ∨ s.alloc.opState = .hold) ∧ (s.bay b).blockCause = .none ∧ (s.bay b).calState = .idle

/-- R116, R123: an IDLE bay holds settle remaining, samples taken and sample sum 0; a bay outside SETTLING holds settle remaining 0; at most
seven results are held between steps; and the offset lies from -40 to +40. -/
def State.CalibrationsExact (s : State) : Prop :=
  ∀ b, (-40 ≤ (s.bay b).offset ∧ (s.bay b).offset ≤ 40) ∧ (s.bay b).samplesTaken ≤ 7 ∧
    ((s.bay b).calState ≠ .settling → (s.bay b).settleLeft = 0) ∧
    ((s.bay b).calState ≠ .sampling → (s.bay b).samplesTaken = 0 ∧ (s.bay b).sampleSum = 0)

/-! ### Sampler -/

/-- R96: each kind's pending requests hold a channel at most once, in ascending order; CALIBRATION requests are for bay channels and CONFIRM
requests for bay channels and FEED. -/
def State.RequestsExact (s : State) : Prop :=
  s.sampler.calRequests.Pairwise (· < ·) ∧ s.sampler.confirmRequests.Pairwise (· < ·) ∧ s.sampler.portRequests.Pairwise (· < ·) ∧
    (∀ c ∈ s.sampler.calRequests, c < feedChannel) ∧ ∀ c ∈ s.sampler.confirmRequests, c ≤ feedChannel

/-! ### Creation, between the state before and the state after -/

/-- A record of `s` becomes WAITING in `t` for a bay (R13, R35, R36): `i` was the head of the free list and `rest` is the rest of it. -/
structure Creates (s t : State) (i : RecIdx) (rest : List RecIdx) (b : BayIdx) (u : Terms) : Prop where
  /-- HOLD outside RUNNING, BUDGET while reclaiming, else NONE. -/
  life : t.life i = .waiting u
    (if s.alloc.opState ≠ .running then .hold else if s.alloc.reclaiming = true then .budget else .none)
  otherLives : ∀ j, j ≠ i → t.life j = s.life j
  generations : ∀ j, (t.record j).generation = (s.record j).generation
  freeList : t.pool.freeList = rest
  entry : t.bay b = { s.bay b with record := some i }
  otherBays : ∀ c, c ≠ b → t.bay c = s.bay c
  /-- After the last entry of its class or higher, at the head when there is none. -/
  place : ∃ l1 l2, s.alloc.waitQueue = l1 ++ l2 ∧ t.alloc.waitQueue = l1 ++ i :: l2 ∧ (∀ j ∈ l2, t.classOf j < u.cls) ∧
    ∀ j ∈ l1.getLast?, u.cls ≤ t.classOf j
  frame : t = { s with
    pool := { s.pool with records := t.pool.records, freeList := rest }, bays := t.bays
    alloc := { s.alloc with
      waitQueue := t.alloc.waitQueue
      passDue := s.alloc.passDue || (s.alloc.opState == .running && !s.alloc.reclaiming) } }

/-! ### Entry into SPENT, into RETIRING and into TRIP, between the state before and the state after -/

/-- A record's entry into SPENT (R19, R74, R30, R179): `s` before, `t` after, `u` the record's terms. -/
structure EntersSpent (s t : State) (i : RecIdx) (u : Terms) (cause : EndCause) (forced : Bool) : Prop where
  life : t.life i = .spent u cause forced
  otherLives : ∀ j, j ≠ i → t.life j = s.life j
  generations : ∀ j, (t.record j).generation = (s.record j).generation
  freeList : t.pool.freeList = s.pool.freeList
  waitQueue : t.alloc.waitQueue = s.alloc.waitQueue.filter (· ≠ i)
  grantOrder : t.alloc.grantOrder = s.alloc.grantOrder.filter (· ≠ i)
  /-- The load of each on position falls by the whole contribution. -/
  loads : ∀ p, t.load p = s.load p - (s.life i).loadAt p
  /-- A fall that leaves every load at or below the effective ceiling ends reclaiming. -/
  reclaiming : t.alloc.reclaiming = true ↔
    s.alloc.reclaiming = true ∧ ((s.life i).contribution = 0 ∨ ∃ p, s.alloc.effCeiling < t.load p)
  reclaimFlag : t.attention.flags.get flagReclaim =
    if s.alloc.reclaiming = true ∧ t.alloc.reclaiming = false then .raisedUnseen else s.attention.flags.get flagReclaim
  /-- A load decrease is a pass trigger, kept in RUNNING outside reclaiming. -/
  passDue : t.alloc.passDue =
    (s.alloc.passDue || ((s.life i).contribution != 0 && s.alloc.opState == .running && !t.alloc.reclaiming))
  entry : (t.bay u.bay).record = none ∧ (t.bay u.bay).lastSpent = some (s.handle i) ∧
    (t.bay u.bay).events = { (s.bay u.bay).events with spent := true } ∧ (t.bay u.bay).enable = .opened
  opening : (s.bay u.bay).enable = .closed →
    (t.bay u.bay).limit = 0 ∧ (t.bay u.bay).stagedDuty = 0 ∧ (t.bay u.bay).decreaseGrace = none ∧ (t.bay u.bay).strayGrace = true
  alreadyOpen : (s.bay u.bay).enable = .opened →
    t.bay u.bay = { s.bay u.bay with
      record := none, lastSpent := some (s.handle i), events := { (s.bay u.bay).events with spent := true } }
  bay : t.bay u.bay = { s.bay u.bay with
    record := (t.bay u.bay).record, lastSpent := (t.bay u.bay).lastSpent, events := (t.bay u.bay).events, enable := (t.bay u.bay).enable,
    limit := (t.bay u.bay).limit, stagedDuty := (t.bay u.bay).stagedDuty, decreaseGrace := (t.bay u.bay).decreaseGrace,
    strayGrace := (t.bay u.bay).strayGrace }
  otherBays : ∀ c, c ≠ u.bay → t.bay c = s.bay c
  bayFlag : t.attention.flags.get (bayFlag u.bay) = .raisedUnseen
  otherFlags : ∀ f, f ≠ Machine.bayFlag u.bay → f ≠ flagReclaim → f ≠ flagEditStale → t.attention.flags.get f = s.attention.flags.get f
  window : t.pool.edit = s.pool.edit.map fun w => { w with stale := w.stale || decide (w.handle % 64 = i.val) }
  staleFlag : t.attention.flags.get flagEditStale =
    if s.pool.edit.any (fun w => w.handle % 64 == i.val && !w.stale) then .raisedUnseen else s.attention.flags.get flagEditStale
  frame : t = { s with
    pool := t.pool, bays := t.bays, attention := { s.attention with flags := t.attention.flags },
    alloc := { s.alloc with
      loads := t.alloc.loads, waitQueue := t.alloc.waitQueue, grantOrder := t.alloc.grantOrder, reclaiming := t.alloc.reclaiming,
      passDue := t.alloc.passDue } }

/-- A GRANTED record's entry into RETIRING (R15, R30, R79, R84, R179): `s` before, `t` after, `u` and `g` the record's terms and grant. -/
structure EntersRetiring (s t : State) (i : RecIdx) (u : Terms) (g : Grant) (cause : EndCause) : Prop where
  life : t.life i = .retiring u g.active cause s.params.retireTimeout
  otherLives : ∀ j, j ≠ i → t.life j = s.life j
  generations : ∀ j, (t.record j).generation = (s.record j).generation
  freeList : t.pool.freeList = s.pool.freeList
  waitQueue : t.alloc.waitQueue = s.alloc.waitQueue.filter (· ≠ i)
  grantOrder : t.alloc.grantOrder = s.alloc.grantOrder.filter (· ≠ i)
  /-- The load of each on position becomes the active grant's part: it falls by staged - active where staged was above active. -/
  loads : ∀ p, t.load p = if u.onAt p then s.load p + g.active - max g.active g.staged else s.load p
  reclaiming : t.alloc.reclaiming = true ↔
    s.alloc.reclaiming = true ∧ (g.staged ≤ g.active ∨ ∃ p, s.alloc.effCeiling < t.load p)
  reclaimFlag : t.attention.flags.get flagReclaim =
    if s.alloc.reclaiming = true ∧ t.alloc.reclaiming = false then .raisedUnseen else s.attention.flags.get flagReclaim
  passDue : t.alloc.passDue =
    (s.alloc.passDue || (decide (g.active < g.staged) && s.alloc.opState == .running && !t.alloc.reclaiming))
  limit : (t.bay u.bay).limit = 0 ∧ ((s.bay u.bay).limit = 0 → t.bay u.bay = s.bay u.bay)
  grace : 0 < (s.bay u.bay).limit → (s.bay u.bay).enable = .closed →
    (t.bay u.bay).decreaseGrace = some ((s.bay u.bay).decreaseGrace.getD (s.bay u.bay).limit) ∧ (t.bay u.bay).stagedDuty = 0
  bay : t.bay u.bay = { s.bay u.bay with
    limit := (t.bay u.bay).limit, stagedDuty := (t.bay u.bay).stagedDuty, decreaseGrace := (t.bay u.bay).decreaseGrace }
  otherBays : ∀ c, c ≠ u.bay → t.bay c = s.bay c
  otherFlags : ∀ f, f ≠ flagReclaim → f ≠ flagEditStale → t.attention.flags.get f = s.attention.flags.get f
  window : t.pool.edit = s.pool.edit.map fun w => { w with stale := w.stale || decide (w.handle % 64 = i.val) }
  staleFlag : t.attention.flags.get flagEditStale =
    if s.pool.edit.any (fun w => w.handle % 64 == i.val && !w.stale) then .raisedUnseen else s.attention.flags.get flagEditStale
  frame : t = { s with
    pool := t.pool, bays := t.bays, attention := { s.attention with flags := t.attention.flags },
    alloc := { s.alloc with
      loads := t.alloc.loads, waitQueue := t.alloc.waitQueue, grantOrder := t.alloc.grantOrder, reclaiming := t.alloc.reclaiming,
      passDue := t.alloc.passDue } }

/-- Entry into TRIP (R141, R142): `s` before, `t` after. -/
structure EntersTrip (s t : State) : Prop where
  /-- Every GRANTED and RETIRING record is SPENT with cause TRIP, forced no; every WAITING record waits with HOLD; the others stand. -/
  lives : ∀ i, t.life i =
    match s.life i with
    | .granted u _ => .spent u .trip false
    | .retiring u _ _ _ => .spent u .trip false
    | .waiting u _ => .waiting u .hold
    | l => l
  loads : ∀ p, t.load p = 0
  /-- A CLOSED enable opens with stray grace and no block cause set; an OPEN one is left as it is (R74, R142). -/
  outputs : ∀ b, (t.bay b).enable = .opened ∧
    ((s.bay b).enable = .closed →
      (t.bay b).limit = 0 ∧ (t.bay b).stagedDuty = 0 ∧ (t.bay b).decreaseGrace = none ∧ (t.bay b).strayGrace = true) ∧
    ((s.bay b).enable = .opened →
      (t.bay b).limit = (s.bay b).limit ∧ (t.bay b).stagedDuty = (s.bay b).stagedDuty ∧
        (t.bay b).decreaseGrace = (s.bay b).decreaseGrace ∧ (t.bay b).strayGrace = (s.bay b).strayGrace)
  /-- The entry of a bay whose record ends: no record, SPENT added, the bay's flag raised, and the record's handle the last spent handle. -/
  entries : ∀ i u, (s.life i).terms? = some u → (s.life i).holdsLoad = true →
    (t.bay u.bay).record = none ∧ (t.bay u.bay).events = { (s.bay u.bay).events with spent := true } ∧
      t.attention.flags.get (bayFlag u.bay) = .raisedUnseen ∧
      ((∀ j v, (s.life j).terms? = some v → (s.life j).holdsLoad = true → v.bay = u.bay → j = i) →
        (t.bay u.bay).lastSpent = some (s.handle i))
  /-- The entry of any other bay. -/
  otherEntries : ∀ b, (∀ i u, (s.life i).terms? = some u → (s.life i).holdsLoad = true → u.bay ≠ b) →
    (t.bay b).record = (s.bay b).record ∧ (t.bay b).events = (s.bay b).events ∧ (t.bay b).lastSpent = (s.bay b).lastSpent ∧
      t.attention.flags.get (bayFlag b) = s.attention.flags.get (bayFlag b)
  bays : ∀ b, t.bay b = { s.bay b with
    record := (t.bay b).record, lastSpent := (t.bay b).lastSpent, events := (t.bay b).events, enable := (t.bay b).enable,
    limit := (t.bay b).limit, stagedDuty := (t.bay b).stagedDuty, decreaseGrace := (t.bay b).decreaseGrace,
    strayGrace := (t.bay b).strayGrace }
  tripFlag : t.attention.flags.get flagTrip = .raisedUnseen
  reclaimFlag : t.attention.flags.get flagReclaim =
    if s.alloc.reclaiming then .raisedUnseen else s.attention.flags.get flagReclaim
  staleFlag : t.attention.flags.get flagEditStale =
    if s.pool.edit.any (fun w => !w.stale && allRecords.any fun i => (s.life i).holdsLoad && w.handle % 64 == i.val) then .raisedUnseen
    else s.attention.flags.get flagEditStale
  otherFlags : ∀ f, f = flagPoolFull ∨ f = flagZone ∨ f = flagClock → t.attention.flags.get f = s.attention.flags.get f
  window : t.pool.edit = s.pool.edit.map fun w =>
    { w with stale := w.stale || allRecords.any fun i => (s.life i).holdsLoad && w.handle % 64 == i.val }
  generations : ∀ i, (t.record i).generation = (s.record i).generation
  /-- The records that leave are on the grant order list, so the wait queue keeps its order. -/
  waitQueue : s.WaitQueueExact → t.alloc.waitQueue = s.alloc.waitQueue
  frame : t = { s with
    pool := { s.pool with records := t.pool.records, edit := t.pool.edit }, bays := t.bays,
    attention := { s.attention with flags := t.attention.flags },
    alloc := { s.alloc with
      loads := t.alloc.loads, waitQueue := t.alloc.waitQueue, grantOrder := [], reclaiming := false, opState := .trip } }

/-! ### A change that reaches a record, and a grant that changes -/

/-- A change reaches record `i` (R179): an OPEN window on it that is not STALE becomes STALE and EDIT_STALE is raised; nothing else changes. -/
structure Overtakes (s t : State) (i : RecIdx) : Prop where
  window : t.pool.edit = s.pool.edit.map fun w => { w with stale := w.stale || decide (w.handle % 64 = i.val) }
  staleFlag : t.attention.flags.get flagEditStale =
    if s.pool.edit.any (fun w => w.handle % 64 == i.val && !w.stale) then .raisedUnseen else s.attention.flags.get flagEditStale
  otherFlags : ∀ f, f ≠ flagEditStale → t.attention.flags.get f = s.attention.flags.get f
  frame : t = { s with
    pool := { s.pool with edit := t.pool.edit }, attention := { s.attention with flags := t.attention.flags } }

/-- A GRANTED record's terms and grant change by squeeze, reclaim lowering, restore, a commit or a CHANGE, its pattern kept (R25, R30, R47, R50,
R137, R179): `s` before, `t` after, `u` and `g` the record's terms and grant before, `u'` and `g'` after. The bays and the lists stand. -/
structure Regrants (s t : State) (i : RecIdx) (u : Terms) (g : Grant) (u' : Terms) (g' : Grant) : Prop where
  life : t.life i = .granted u' g'
  pattern : u'.mask = u.mask ∧ u'.value = u.value
  otherLives : ∀ j, j ≠ i → t.life j = s.life j
  generations : ∀ j, (t.record j).generation = (s.record j).generation
  /-- The contribution is the larger of the active and the staged grant. -/
  loads : ∀ p, t.load p = if u'.onAt p then s.load p + max g'.active g'.staged - max g.active g.staged else s.load p
  /-- A fall that leaves every load at or below the effective ceiling ends reclaiming. -/
  reclaiming : t.alloc.reclaiming = true ↔
    s.alloc.reclaiming = true ∧ (max g.active g.staged = max g'.active g'.staged ∨ ∃ p, s.alloc.effCeiling < t.load p)
  reclaimFlag : t.attention.flags.get flagReclaim =
    if s.alloc.reclaiming = true ∧ t.alloc.reclaiming = false then .raisedUnseen else s.attention.flags.get flagReclaim
  /-- A load decrease, and the end of reclaiming, is a pass trigger, kept in RUNNING outside reclaiming. -/
  passDue : t.alloc.passDue = (s.alloc.passDue ||
    ((decide (max g'.active g'.staged < max g.active g.staged) || s.alloc.reclaiming) && s.alloc.opState == .running &&
      !t.alloc.reclaiming && decide (max g'.active g'.staged ≠ max g.active g.staged)))
  otherFlags : ∀ f, f ≠ flagReclaim → f ≠ flagEditStale → t.attention.flags.get f = s.attention.flags.get f
  window : t.pool.edit = s.pool.edit.map fun w => { w with stale := w.stale || decide (w.handle % 64 = i.val) }
  staleFlag : t.attention.flags.get flagEditStale =
    if s.pool.edit.any (fun w => w.handle % 64 == i.val && !w.stale) then .raisedUnseen else s.attention.flags.get flagEditStale
  frame : t = { s with
    pool := { s.pool with records := t.pool.records, edit := t.pool.edit }, attention := { s.attention with flags := t.attention.flags },
    alloc := { s.alloc with loads := t.alloc.loads, reclaiming := t.alloc.reclaiming, passDue := t.alloc.passDue } }

/-- A GRANTED record's staged grant becomes `n` by squeeze, reclaim lowering or restore (R30, R47, R50, R137, R179): its terms and the rest of
its grant stand. -/
def Stages (s t : State) (i : RecIdx) (u : Terms) (g : Grant) (n : Nat) : Prop :=
  Regrants s t i u g u { g with staged := n }

/-! ### Orders of the GRANTED records, and room -/

/-- Class ascending and, within a class, youngest first, by the grant order list read from the tail (R45, R137). -/
def State.LowerFirst (s : State) (i j : RecIdx) : Prop :=
  s.classOf i < s.classOf j ∨ s.classOf i = s.classOf j ∧ s.alloc.grantOrder.idxOf j < s.alloc.grantOrder.idxOf i

/-- Class descending and, within a class, oldest first, by the grant order list read from the head (R49). -/
def State.RaiseFirst (s : State) (i j : RecIdx) : Prop :=
  s.classOf j < s.classOf i ∨ s.classOf i = s.classOf j ∧ s.alloc.grantOrder.idxOf i < s.alloc.grantOrder.idxOf j

/-- `n` is the room of the terms under a ceiling against these loads: the smallest headroom over the positions in which they are on, a
negative one counting as 0 (R34). -/
def IsRoom (ceiling : Nat) (load : Position → Nat) (u : Terms) (n : Nat) : Prop :=
  (∀ p, u.onAt p = true → n ≤ ceiling - load p) ∧ ∃ p, u.onAt p = true ∧ n = ceiling - load p

/-! ### The admission pass -/

/-- The first condition of R41 that holds of a bay, with its wait reason. -/
def State.PassesOver (s : State) (b : BayIdx) (r : WaitReason) : Prop :=
  (s.bay b).blockCause ≠ .none ∧ r = .blocked ∨
    (s.bay b).blockCause = .none ∧ (s.bay b).calState ≠ .idle ∧ r = .calibrating ∨
    (s.bay b).blockCause = .none ∧ (s.bay b).calState = .idle ∧ (s.bay b).gate = .shut ∧ r = .gated ∨
    (s.bay b).blockCause = .none ∧ (s.bay b).calState = .idle ∧ (s.bay b).gate = .opened ∧
      s.params.closeLimit ≤ (s.bay b).closeCount ∧ r = .closeLimit

/-- No condition of R41 holds of a bay. -/
def State.Admissible (s : State) (b : BayIdx) : Prop :=
  (s.bay b).blockCause = .none ∧ (s.bay b).calState = .idle ∧ (s.bay b).gate = .opened ∧ (s.bay b).closeCount < s.params.closeLimit

/-- Admission of a WAITING record with grant `n` outside reclaiming (R29, R38, R43, R66, R73, R83, R179): `s` before, `t` after. -/
structure Admits (s t : State) (i : RecIdx) (u : Terms) (n : Nat) : Prop where
  life : t.life i = .granted u {
    active := 0, staged := n
    leaseLeft := if u.leaseLength = 0 then none else some u.leaseLength
    taperState := match u.taper with
      | [] => none
      | st :: _ => some { step := 0, left := st.periods, unopened := true }
    strikes := 0, strikeWindowLeft := s.params.strikeWindow }
  otherLives : ∀ j, j ≠ i → t.life j = s.life j
  generations : ∀ j, (t.record j).generation = (s.record j).generation
  loads : ∀ p, t.load p = if u.onAt p then s.load p + n else s.load p
  /-- The limit value and the staged duty stay 0, and the in-effect duty is 0 with them (R73, log 24). -/
  bay : t.bay u.bay = { s.bay u.bay with
    enable := .closed, closeCount := (s.bay u.bay).closeCount + 1, strayGrace := false, inEffectDuty := 0
    events := { (s.bay u.bay).events with admitted := true } }
  otherBays : ∀ b, b ≠ u.bay → t.bay b = s.bay b
  bayFlag : t.attention.flags.get (bayFlag u.bay) = .raisedUnseen
  otherFlags : ∀ f, f ≠ Machine.bayFlag u.bay → f ≠ flagEditStale → t.attention.flags.get f = s.attention.flags.get f
  window : t.pool.edit = s.pool.edit.map fun w => { w with stale := w.stale || decide (w.handle % 64 = i.val) }
  staleFlag : t.attention.flags.get flagEditStale =
    if s.pool.edit.any (fun w => w.handle % 64 == i.val && !w.stale) then .raisedUnseen else s.attention.flags.get flagEditStale
  frame : t = { s with
    pool := { s.pool with records := t.pool.records, edit := t.pool.edit }, bays := t.bays,
    attention := { s.attention with flags := t.attention.flags },
    alloc := { s.alloc with
      loads := t.alloc.loads, waitQueue := s.alloc.waitQueue.filter (· ≠ i), grantOrder := s.alloc.grantOrder ++ [i] } }

/-- The staged grant of each record of the list in turn becomes its floor (R46, R47). -/
inductive Lowers : State → List RecIdx → State → Prop
  | ended (s : State) : Lowers s [] s
  | lowered {s s' t : State} {j : RecIdx} {rest : List RecIdx} {v : Terms} {g : Grant} :
      s.life j = .granted v g → Stages s s' j v g v.floor → Lowers s' rest t → Lowers s (j :: rest) t

/-- The candidates of a squeeze for a budget-blocked record with terms `u`, in order (R45). -/
def State.SqueezeCandidates (s : State) (u : Terms) (l : List RecIdx) : Prop :=
  (∀ j, j ∈ l ↔ j ∈ s.alloc.grantOrder ∧ ∃ v g, s.life j = .granted v g ∧ v.cls < u.cls ∧ v.floor < g.staged ∧
    ∃ p, u.onAt p = true ∧ v.onAt p = true) ∧ l.Pairwise s.LowerFirst

/-- The projected room of a record with the candidates `low` at their floor is enough for it: at least the larger of its floor and 1 (R46). -/
def State.FitsWith (s : State) (low : List RecIdx) (u : Terms) : Prop :=
  ∃ n, IsRoom s.alloc.effCeiling (s.projectedLoad low) u n ∧ max u.floor 1 ≤ n

/-- The squeeze for a budget-blocked record (R45, R46): nothing for a class outside the squeeze classes, for a record that fits without it, and
for one that fits after no candidate; else the candidates up to the first after which it fits are lowered. -/
inductive Squeezes (s : State) (u : Terms) : State → Prop
  | otherClass : s.params.squeezeClasses.getLsbD u.cls.val = false → Squeezes s u s
  | roomComes : s.FitsWith [] u → Squeezes s u s
  | tooLittle {l : List RecIdx} : ¬ s.FitsWith [] u → s.SqueezeCandidates u l →
      (∀ low, low ≠ [] → low <+: l → ¬ s.FitsWith low u) → Squeezes s u s
  | lowers {l low : List RecIdx} {t : State} : s.params.squeezeClasses.getLsbD u.cls.val = true → ¬ s.FitsWith [] u →
      s.SqueezeCandidates u l → low ≠ [] → low <+: l → s.FitsWith low u →
      (∀ few, few ≠ [] → few <+: low → few ≠ low → ¬ s.FitsWith few u) → Lowers s low t → Squeezes s u t

/-- The WAITING records of the list wait with BUDGET; nothing else changes (R42). -/
def WaitForBudget (s t : State) (l : List RecIdx) : Prop :=
  (∀ j, t.record j = { s.record j with life := if j ∈ l then (s.life j).withReason .budget else s.life j }) ∧
    t = { s with pool := { s.pool with records := t.pool.records } }

/-- The walk of queue entries in order (R41, R42): each is passed over, admitted with the smaller of its requested value and its room, or
stops the walk, with BUDGET for it and every record behind it and a squeeze. The Boolean says whether the walk stopped. -/
inductive Walks : State → List RecIdx → State → Bool → Prop
  | ended (s : State) : Walks s [] s false
  | over {s t : State} {i : RecIdx} {rest : List RecIdx} {stop : Bool} {u : Terms} {r r' : WaitReason} :
      s.life i = .waiting u r → s.PassesOver u.bay r' → Walks (s.setLife i (.waiting u r')) rest t stop → Walks s (i :: rest) t stop
  | admitted {s s' t : State} {i : RecIdx} {rest : List RecIdx} {stop : Bool} {u : Terms} {r : WaitReason} {n : Nat} :
      s.life i = .waiting u r → s.Admissible u.bay → IsRoom s.alloc.effCeiling s.load u n → max u.floor 1 ≤ n →
      Admits s s' i u (min u.requested n) → Walks s' rest t stop → Walks s (i :: rest) t stop
  | stopped {s s' t : State} {i : RecIdx} {rest : List RecIdx} {u : Terms} {r : WaitReason} {n : Nat} :
      s.life i = .waiting u r → s.Admissible u.bay → IsRoom s.alloc.effCeiling s.load u n → n < max u.floor 1 →
      WaitForBudget s s' (i :: rest) → Squeezes s' u t → Walks s (i :: rest) t true

/-- The restore of GRANTED records in order (R49, R50): each is raised by the smaller of what its staged grant lacks of its requested value and
its room against the loads as the raises before it left them; one with nothing to raise is left as it is. -/
inductive Restores : State → List RecIdx → State → Prop
  | ended (s : State) : Restores s [] s
  | left {s t : State} {j : RecIdx} {rest : List RecIdx} {v : Terms} {g : Grant} {n : Nat} :
      s.life j = .granted v g → IsRoom s.alloc.effCeiling s.load v n → min (v.requested - g.staged) n = 0 → Restores s rest t →
      Restores s (j :: rest) t
  | raised {s s' t : State} {j : RecIdx} {rest : List RecIdx} {v : Terms} {g : Grant} {n : Nat} :
      s.life j = .granted v g → IsRoom s.alloc.effCeiling s.load v n → 0 < min (v.requested - g.staged) n →
      Stages s s' j v g (g.staged + min (v.requested - g.staged) n) → Restores s' rest t → Restores s (j :: rest) t

/-! ### The reclaim step -/

/-- A position in which the terms are on does not fit: its reclaim measure exceeds the effective ceiling (R135). -/
def State.InExcess (s : State) (u : Terms) : Prop :=
  ∃ p, u.onAt p = true ∧ s.alloc.effCeiling < s.measure p

/-- The lowering walk (R137): each record above its floor and on in a position that does not fit is lowered to its floor; the others are left, so
that from the point at which every position fits nothing more is lowered. -/
inductive ReclaimLowers : State → List RecIdx → State → Prop
  | ended (s : State) : ReclaimLowers s [] s
  | left {s t : State} {j : RecIdx} {rest : List RecIdx} {v : Terms} {g : Grant} :
      s.life j = .granted v g → ¬ (v.floor < g.staged ∧ s.InExcess v) → ReclaimLowers s rest t → ReclaimLowers s (j :: rest) t
  | lowered {s s' t : State} {j : RecIdx} {rest : List RecIdx} {v : Terms} {g : Grant} :
      s.life j = .granted v g → v.floor < g.staged → s.InExcess v → Stages s s' j v g v.floor → ReclaimLowers s' rest t →
      ReclaimLowers s (j :: rest) t

/-- The revoke walk (R138): each record with a staged grant above 0 and on in a position that still does not fit is revoked. -/
inductive ReclaimRevokes : State → List RecIdx → State → Prop
  | ended (s : State) : ReclaimRevokes s [] s
  | left {s t : State} {j : RecIdx} {rest : List RecIdx} {v : Terms} {g : Grant} :
      s.life j = .granted v g → ¬ (0 < g.staged ∧ s.InExcess v) → ReclaimRevokes s rest t → ReclaimRevokes s (j :: rest) t
  | revoked {s s' t : State} {j : RecIdx} {rest : List RecIdx} {v : Terms} {g : Grant} :
      s.life j = .granted v g → 0 < g.staged → s.InExcess v → EntersRetiring s s' j v g .reclaim → ReclaimRevokes s' rest t →
      ReclaimRevokes s (j :: rest) t

/-- A reclaim step on `s`, in which the new effective ceiling stands below some load (R136 to R139), and the state `t` after it. Outside
reclaiming it begins it: RECLAIM is raised and every WAITING record waits with BUDGET. Then the GRANTED records are walked twice in one order,
class ascending and youngest first, to lower and to revoke. -/
def Reclaims (s t : State) : Prop :=
  ∃ (v m : State) (l : List RecIdx),
    (s.alloc.reclaiming = true → v = s) ∧
    (s.alloc.reclaiming = false → ∃ records : Vector Record 48,
      (∀ i, records.get i = { s.record i with life := (s.life i).withReason .budget }) ∧
      v = { s.raise flagReclaim with pool := { s.pool with records := records }, alloc := { s.alloc with reclaiming := true } }) ∧
    (∀ i, i ∈ l ↔ i ∈ s.alloc.grantOrder) ∧ l.Pairwise v.LowerFirst ∧ ReclaimLowers v l m ∧ ReclaimRevokes m l t

/-- The Allocator takes a recomputed effective ceiling `e` (R33, R132, R133, R139, R140): `s` before, `t` after. -/
structure TakesEffective (s : State) (e : Nat) (t : State) : Prop where
  equal : e = s.alloc.effCeiling → t = s
  /-- A fall that leaves every load at or below it. -/
  fits : e < s.alloc.effCeiling → s.alloc.reclaiming = false → (∀ p, s.load p ≤ e) → t = { s with alloc := { s.alloc with effCeiling := e } }
  /-- A fall below some load begins reclaiming, or runs a further reclaim step. -/
  below : e < s.alloc.effCeiling → (∃ p, e < s.load p) → Reclaims { s with alloc := { s.alloc with effCeiling := e } } t
  /-- A rise outside reclaiming is a pass trigger. -/
  rise : s.alloc.effCeiling < e → s.alloc.reclaiming = false → t = { s with alloc := { s.alloc with
    effCeiling := e, passDue := s.alloc.passDue || (s.alloc.opState == OpState.running) } }
  /-- A rise under which some load still does not fit leaves reclaiming as it is. -/
  continues : s.alloc.effCeiling < e → s.alloc.reclaiming = true → (∃ p, e < s.load p) →
    t = { s with alloc := { s.alloc with effCeiling := e } }
  /-- A rise under which every load fits ends reclaiming, which raises RECLAIM and is a pass trigger. -/
  ends : s.alloc.effCeiling < e → s.alloc.reclaiming = true → (∀ p, s.load p ≤ e) → t = { s with alloc := { s.alloc with
    effCeiling := e, reclaiming := false, passDue := s.alloc.passDue || (s.alloc.opState == OpState.running) } }.raise flagReclaim

end Sys2Proof.Machine
end

