-- ==== Sys2Proof/WellFormed.lean ====
section
/-!
DEFINITION. Which terms of Instr stand for something the wires or the inputs can carry.
Nothing here judges whether a command is accepted: a refused argument is a well-formed command with a BAD_ARG reply.
-/
namespace Sys2Proof

/-- The argument count of a transaction is one byte (R174). -/
def argsFit (args : List Byte) : Bool :=
  decide (args.length ≤ 255)

/-- The bytes of a RETIRE with mode IMMEDIATE: handle and mode 1 (R184). -/
def retireModeImmediate (args : List Byte) : Bool :=
  match args with
  | [_, _, mode] => mode == 1
  | _ => false

/-- The host's bytes stop before the last argument byte of the command they begin (R174). -/
def transactionIncomplete (sent : List Byte) : Bool :=
  match sent with
  | [] => true
  | [_] => true
  | _ :: count :: args => decide (args.length < count.toNat)

/-- The command codes that name no command: 0 and 36 to 255 (R184). -/
def codeNamesNoCommand (code : Byte) : Bool :=
  code.toNat == 0 || decide (36 ≤ code.toNat)

/-- A term that the wires or the inputs can carry. -/
def Instr.wf : Instr → Bool
  | .deviceReset => true
  | .start args => argsFit args
  | .stop args => argsFit args
  | .restart args => argsFit args
  | .holdSet args => argsFit args
  | .holdClear args => argsFit args
  | .resume args => argsFit args
  | .configWrite args => argsFit args
  | .configRead args => argsFit args
  | .ceilingWrite args => argsFit args
  | .bayGate args => argsFit args
  | .alloc args => argsFit args
  | .lookupHandle args => argsFit args
  | .lookupBay args => argsFit args
  | .retireGraceful args => argsFit args && !retireModeImmediate args
  | .retireImmediate args => retireModeImmediate args
  | .reclaim args => argsFit args
  | .renew args => argsFit args
  | .editOpen args => argsFit args
  | .editPut args => argsFit args
  | .editTaper args => argsFit args
  | .editCommit args => argsFit args
  | .editDrop args => argsFit args
  | .queueRead args => argsFit args
  | .orderRead args => argsFit args
  | .loadRead args => argsFit args
  | .bayRead args => argsFit args
  | .bayUnblock args => argsFit args
  | .calStart args => argsFit args
  | .sampleRequest args => argsFit args
  | .sampleRead args => argsFit args
  | .clockReturn arrival => argsFit arrival.args
  | .clockRead args => argsFit args
  | .flagsRead args => argsFit args
  | .flagsClear args => argsFit args
  | .flagsEnable args => argsFit args
  | .identRead args => argsFit args
  | .badCommand code args => codeNamesNoCommand code && argsFit args
  | .transactionAbort sent => transactionIncomplete sent
  | .pollSend => true
  | .replyWindowExpiry => true
  | .badFrame => true
  | .foreignFrame => true
  | .reportNone => true
  | .ask _ _ _ _ _ _ => true
  | .change _ _ _ => true
  | .linkRenew _ => true
  | .release _ => true
  | .admissionPass => true
  | .periodBoundary later => decide later.Nodup
  | .leaseEnd _ => true
  | .taperStepAdvance _ => true
  | .taperEnd _ => true
  | .rampTimeout _ => true
  | .strikeWindowEnd _ => true
  | .closeWindowEnd => true
  | .settleEnd _ => true
  | .signalPeriodStart => true
  /- No input of the converter reads below -100 dA or above 4000 dA (R93). -/
  | .conversionEnd reading => decide (-100 ≤ reading.raw ∧ reading.raw ≤ 4000)
  | .checkWindowEnd _ => true
  | .millisecondTick => true

end Sys2Proof
end

