-- ==== Sys2Proof/Certificates/Slice0/Obligations.lean ====
section
/-!
DEFINITION. The statements about this model for the provers: what each command and event does, what it leaves alone, and what every
step keeps.
-/

namespace Sys2Proof.Machine

/-- The lowest and highest value of each parameter, in the order of the table of R161. -/
def parameterRanges : List (Nat × Nat) :=
  [(20, 1000), (0, 50), (1, 15), (1, 255), (1, 15), (1, 4095), (1, 63), (1, 20), (1, 50)] ++
    [(0, 200), (0, 15), (0, 63), (0, 63), (0, 63), (1, 2), (1, 15), (1, 65534), (1, 65534)]

/-- The orderings of R161 over the parameters as numbers. -/
def ordered (v : List Nat) : Prop :=
  v.getD 11 0 < v.getD 12 0 ∧ v.getD 12 0 < v.getD 13 0 ∧ v.getD 16 0 < v.getD 17 0

/-- The ranges of R11 that ALLOC and ASK share, over the values as sent. -/
def requestInRange (cls requested floor mask value : Nat) : Prop :=
  cls ≤ 3 ∧ 1 ≤ requested ∧ requested ≤ 630 ∧ floor ≤ requested ∧ mask ≤ 63 ∧ value ≤ 63 ∧
    ∀ k, value.testBit k = true → mask.testBit k = true

/-- The terms of a record created from a request (R13). -/
def createdTerms (b : BayIdx) (o : Origin) (cls requested floor lease mask value : Nat) : Terms :=
  { bay := b, origin := o, cls := Fin.ofNat 4 cls, requested := requested, floor := floor, mask := BitVec.ofNat 6 mask,
    value := BitVec.ofNat 6 value, leaseLength := lease, taper := [], charge := 0, residue := 0 }

/-- What a boundary finds on the bays (R10, R58): for each the handle of the GRANTED or RETIRING record its entry names, none where it names
none. -/
def Finds (s : State) (found : Vector (Option Nat) 16) : Prop :=
  ∀ (b : BayIdx) (h : Nat), found.get b = some h ↔ ∃ i, (s.bay b).record = some i ∧ (s.life i).holdsLoad = true ∧ h = s.handle i

/-- A taper count at a boundary (R67): the row of the table in which the taper state stands, and the state it leaves. -/
def TaperCounts (l : List TaperStep) (ts ts' : TaperState) : Prop :=
  ts.unopened = true ∧ ts' = { ts with unopened := false } ∨
    ts.unopened = false ∧ 1 < ts.left ∧ ts' = { ts with left := ts.left - 1 } ∨
    ts.unopened = false ∧ ts.left = 1 ∧ (∃ st, l[ts.step + 1]? = some st ∧
      ts' = { step := ts.step + 1, left := st.periods, unopened := false }) ∨
    ts.unopened = false ∧ ts.left = 1 ∧ l[ts.step + 1]? = none ∧ ts' = { ts with left := 0 } ∨
    ts.unopened = false ∧ ts.left = 0 ∧ ts' = ts

/-- The taper of a grant is exhausted at a boundary and its last step has current 0 (R67, R68). -/
def TaperRunsOut (l : List TaperStep) (g : Grant) : Prop :=
  ∃ ts st, g.taperState = some ts ∧ ts.unopened = false ∧ ts.left = 1 ∧ l[ts.step + 1]? = none ∧ l[ts.step]? = some st ∧ st.current = 0

/-- The lease of a grant ends at a boundary (R61). -/
def LeaseRunsOut (g : Grant) : Prop :=
  ∃ n, g.leaseLeft = some n ∧ n ≤ 1

/-- A bay after a scan result `r` counted for the charge of the record `i` that its entry names (R101, R113): the latest sample takes it; with
the record's handle as the sum owner it joins the period sum, up to 1000 results; with another sum owner or none it begins a sum. -/
def scanned (s : State) (b : BayIdx) (i : RecIdx) (r : Nat) : Bay :=
  let y := s.bay b
  if y.sumOwner = some (s.handle i) then
    if 1000 ≤ y.periodCount then { y with latestSample := r }
    else { y with latestSample := r, periodSum := y.periodSum + r, periodCount := y.periodCount + 1 }
  else { y with latestSample := r, sumOwner := some (s.handle i), periodSum := r, periodCount := 1 }

/-- The body of LOOKUP for a record with terms `u`, in the order of R184; `presence` is its presence word. -/
def lookupBody (handle state presence : Nat) (u : Terms) (active staged leaseLeft step left reason strikes window : Nat)
    (cause forced ramp : Nat) : List Byte :=
  be16 handle ++ [byteOf state] ++ be16 presence ++ [byteOf u.bay.val, byteOf u.origin.code, byteOf u.cls.val] ++ be16 u.requested ++
    be16 u.floor ++ [byteOf u.mask.toNat, byteOf u.value.toNat] ++ be16 active ++ be16 staged ++
    [byteOf u.leaseLength, byteOf leaseLeft, byteOf step, byteOf left, byteOf reason, byteOf strikes, byteOf window] ++ be32 u.charge ++
    [byteOf cause, byteOf forced, byteOf ramp, byteOf u.taper.length] ++ u.taper.flatMap fun st => be16 st.current ++ [byteOf st.periods]

/-- The commands of the Host Port in the order of the table of section 11.2, which numbers them from 1 (R184). RETIRE is two rows of the
opcode table, told apart by its third argument byte; the bytes of a CLOCK.RETURN do not say when it arrives (log 13). -/
def portCommands : List (List Byte → Instr) :=
  [.start, .stop, .restart, .holdSet, .holdClear, .resume, .configWrite, .configRead, .ceilingWrite, .bayGate, .alloc, .lookupHandle,
    .lookupBay, fun args => if args.length = 3 ∧ args[2]? = some 1 then .retireImmediate args else .retireGraceful args, .reclaim, .renew,
    .editOpen, .editPut, .editTaper, .editCommit, .editDrop, .queueRead, .orderRead, .loadRead, .bayRead, .bayUnblock, .calStart,
    .sampleRequest, .sampleRead, fun args => .clockReturn { args := args, together := false }, .clockRead, .flagsRead, .flagsClear,
    .flagsEnable, .identRead]

/-- The Sampler after the end of a conversion whose result raised a CONFIRM request (R94): the request takes part in the choice of the next
conversion, or arrives after it and waits (log 8). -/
def confirmRaised (late : Bool) (c : Channel) (m : Sampler) : Sampler :=
  if late then { m.choose with confirmRequests := addChannel c m.choose.confirmRequests }
  else { m with confirmRequests := addChannel c m.confirmRequests }.choose

/-- The same of a CALIBRATION request (R94, R121). -/
def calibrationRaised (late : Bool) (c : Channel) (m : Sampler) : Sampler :=
  if late then { m.choose with calRequests := addChannel c m.choose.calRequests }
  else { m with calRequests := addChannel c m.calRequests }.choose

/-- An answer in the reporting bay's slot (R171). -/
def answered (s : State) (b : BayIdx) (code : AnswerCode) (handle : Nat) : State :=
  s.setBay b { s.bay b with answer := some { code := code, handle := handle } }

end Sys2Proof.Machine

section Statements
open Sys2Proof Sys2Proof.Machine

/-! ### Steps, reset and the operating state -/

/-- A step takes the command at the front of the queue and runs it on the state with the rest of the queue; with nothing waiting the part
idles (log 2). -/
def Obligations.StepTakesFront : Prop :=
  (∀ (c : Instr) (rest : List Instr) (s : State), s.pending = c :: rest → step s = exec c { s with pending := rest }) ∧
    (∀ (c : Instr) (s : State), step { s with pending := c :: s.pending } = exec c s) ∧
    ∀ s : State, s.pending = [] → step s = .next s

/-- Every command and event is taken in every state and answers a next state, and none touches the queue of waiting commands. That no
command ends in a fault or a refusal is read from the spec by inference (log 22, DEDUCED), and the queue is the model's own (log 20, DESIGN
CHOICE). -/
def Obligations.EveryCommandCompletes : Prop :=
  ∀ (c : Instr) (s : State), ∃ t, exec c s = .next t ∧ t.pending = s.pending

/-- R27: after device reset every record is FREE with generation 0, the free list holds records 0 to 47 in ascending order and the spent set
is empty, every Bay Table entry's record index is none and its last spent handle is none (65535), the window is CLOSED, and every record's
handle equals its index. -/
def Obligations.ResetPool : Prop :=
  ∀ s : State, ∃ t, exec .deviceReset s = .next t ∧
    (∀ i : RecIdx, t.record i = { generation := 0, life := .free } ∧ t.handle i = i.val) ∧
    t.pool.freeList = List.finRange 48 ∧ (∀ i u c f, t.life i ≠ .spent u c f) ∧
    (∀ b : BayIdx, (t.bay b).record = none ∧ (t.bay b).lastSpent = none) ∧ t.pool.edit = none

/-- Device reset gives every block its reset value, whatever state it finds. The fields that are the model's own start at values it chose: no
boundary part outstanding and no record found (log 3), no pass due (log 4), no conversion held (log 8), no visit phase and no POLL sent
(log 11), the Clock Monitor's two marks no (log 13), no reply (log 15); the queue of waiting commands is not the part's and is kept
(log 20). -/
def Obligations.ResetValues : Prop :=
  ∀ s : State, exec .deviceReset s = .next { State.reset with pending := s.pending } ∧
    (∀ p : Position, State.reset.load p = 0) ∧ State.reset.alloc.waitQueue = [] ∧ State.reset.alloc.grantOrder = [] ∧
    State.reset.alloc.ceiling = 0 ∧ State.reset.alloc.effCeiling = 0 ∧ State.reset.alloc.opState = .standby ∧
    State.reset.alloc.holdPort = false ∧ State.reset.alloc.holdClock = false ∧ State.reset.alloc.reclaiming = false ∧
    State.reset.timer = { running := false, ms := 0, position := 0, outstanding := [], found := Vector.replicate 16 none } ∧
    (∀ b : BayIdx, State.reset.bay b =
      { record := none, lastSpent := none, events := { admitted := false, spent := false, calDone := false, blocked := false },
        presence := .absent, missCount := 0, answer := none, gate := .opened, enable := .opened, limit := 0, stagedDuty := 0,
        inEffectDuty := 0, decreaseGrace := none, strayGrace := false, closeCount := 0, blockCause := .none, latestSample := 0,
        periodSum := 0, periodCount := 0, sumOwner := none, calState := .idle, lastResult := .none, offset := 0, settleLeft := 0,
        samplesTaken := 0, sampleSum := 0 }) ∧
    State.reset.closeWindowLeft = 600 ∧ State.reset.sampler.scanChannel = 0 ∧ State.reset.sampler.calRequests = [] ∧
    State.reset.sampler.confirmRequests = [] ∧ State.reset.sampler.portRequests = [] ∧
    (∀ c : Channel, State.reset.sampler.holders.get c = { ready := false, result := 0 }) ∧
    State.reset.thermal = { filtered := none, zone := .normal } ∧ State.reset.clock.state = .starting ∧
    State.reset.clock.latestCount = 0 ∧ State.reset.clock.countValid = false ∧ State.reset.clock.returnPending = false ∧
    State.reset.clock.goodWindows = 0 ∧ State.reset.clock.windowTicks = 0 ∧ State.reset.clock.windowCycles = 0 ∧
    State.reset.clock.msRemainder = 0 ∧ State.reset.clock.windowPredatesReturn = false ∧ State.reset.clock.windowFresh = false ∧
    State.reset.alloc.passDue = false ∧ State.reset.sampler.current = none ∧ State.reset.link.phase = .none ∧
    State.reset.link.lastPoll = none ∧ State.reset.reply = none ∧ State.reset.link.round = 0 ∧ State.reset.link.position = 0 ∧
    (∀ f : Flag, State.reset.attention.flags.get f = .lowered ∧ State.reset.attention.enables.getLsbD f.val = true) ∧
    State.reset.attentionLine = false ∧
    State.reset.params.values = [100, 10, 3, 50, 6, 600, 20, 5, 10, 50, 8, 25, 30, 35, 2, 3, 30000, 32500]

/-- START (R155): in STANDBY the timer runs from count 0 at position 0, every close count is 0, the close window is loaded and the state is
HOLD while a hold reason is set, else RUNNING with one pass due outside reclaiming; a CRITICAL zone trips the part at once; any other state
replies STATE. -/
def Obligations.StartTaken : Prop :=
  ∀ s : State,
    (s.alloc.opState ≠ .standby → exec (.start []) s = .next (s.refuse .state)) ∧
    (s.alloc.opState = .standby → s.thermal.zone ≠ .critical →
      ∃ bays : Vector Bay 16, (∀ b, bays.get b = { s.bay b with closeCount := 0 }) ∧
        exec (.start []) s = .next { s with
          timer := { running := true, ms := 0, position := 0, outstanding := [], found := Vector.replicate 16 none }
          closeWindowLeft := s.params.closeWindow
          bays := bays
          alloc := { s.alloc with
            opState := if s.alloc.holdPort || s.alloc.holdClock then .hold else .running
            passDue := s.alloc.passDue || !(s.alloc.holdPort || s.alloc.holdClock || s.alloc.reclaiming) }
          reply := some { code := .ok, body := [] } }) ∧
    (s.alloc.opState = .standby → s.thermal.zone = .critical →
      ∃ (bays : Vector Bay 16) (t : State), (∀ b, bays.get b = { s.bay b with closeCount := 0 }) ∧
        EntersTrip { s with
          timer := { running := true, ms := 0, position := 0, outstanding := [], found := Vector.replicate 16 none }
          closeWindowLeft := s.params.closeWindow
          bays := bays } t ∧
        exec (.start []) s = .next t.ok)

/-- STOP (R156): OK in STANDBY with no effect; STATE while a record is GRANTED or RETIRING; else STANDBY with the timer stopped at count 0
and position 0, every WAITING record waiting with HOLD, and all else as the parts of the latest boundary leave it; with none of them
outstanding, as it was (log 3, 6). -/
def Obligations.StopTaken : Prop :=
  ∀ s : State,
    (s.alloc.opState = .standby → exec (.stop []) s = .next s.ok) ∧
    (s.alloc.opState ≠ .standby → (∃ i, (s.life i).holdsLoad = true) → exec (.stop []) s = .next (s.refuse .state)) ∧
    (s.alloc.opState ≠ .standby → (∀ i, (s.life i).holdsLoad = false) →
      ∃ records : Vector Record 48,
        (∀ i, records.get i = { s.finishBoundary.record i with life := (s.finishBoundary.life i).withReason .hold }) ∧
        exec (.stop []) s = .next { s.finishBoundary with
          pool := { s.finishBoundary.pool with records := records }
          alloc := { s.finishBoundary.alloc with opState := .standby }
          timer := { running := false, ms := 0, position := 0, outstanding := [], found := Vector.replicate 16 none }
          reply := some { code := .ok, body := [] } }) ∧
    (s.timer.outstanding = [] → s.finishBoundary = s)

/-- RESTART (R28, R159), block by block, in every operating state; `u` is the state once the parts of the latest boundary are taken, the
state before when none is outstanding (log 3). -/
def Obligations.RestartTaken : Prop :=
  ∀ s : State, ∃ u : State, (s.timer.outstanding = [] → u = s) ∧ u = s.finishBoundary ∧
    ∃ t, exec (.restart []) s = .next t ∧
      (∀ i, t.life i = .free ∧
        (t.record i).generation = if u.life i = .free then (u.record i).generation else (u.record i).generation + 1) ∧
      t.pool.freeList = u.pool.freeList ++ (List.finRange 48).filter (fun i => u.life i != .free) ∧ t.pool.edit = none ∧
      (∀ p, t.load p = 0) ∧
      (∀ b, t.bay b = { u.bay b with
        record := none, lastSpent := none, events := { admitted := false, spent := false, calDone := false, blocked := false },
        answer := none, enable := .opened, limit := 0, stagedDuty := 0, decreaseGrace := none,
        strayGrace := (u.bay b).strayGrace || (u.bay b).enable == .closed, closeCount := 0, blockCause := .none, latestSample := 0,
        periodSum := 0, periodCount := 0, sumOwner := none, calState := .idle,
        lastResult := if (u.bay b).calState = .idle then (u.bay b).lastResult else .aborted,
        settleLeft := 0, samplesTaken := 0, sampleSum := 0 }) ∧
      (∀ f, t.attention.flags.get f = .lowered) ∧
      t = { u with
        pool := t.pool, bays := t.bays, attention := { u.attention with flags := t.attention.flags }
        alloc := { u.alloc with
          loads := t.alloc.loads, waitQueue := [], grantOrder := [], opState := .standby, holdPort := false, reclaiming := false,
          passDue := false }
        timer := { running := false, ms := 0, position := 0, outstanding := [], found := Vector.replicate 16 none }
        sampler := { u.sampler with calRequests := [], confirmRequests := [] }
        reply := some { code := .ok, body := [] } }

/-- HOLD.SET and HOLD.CLEAR (R154, R157): PORT is set or cleared; RUNNING becomes HOLD with every wait reason HOLD; HOLD with no reason left
becomes RUNNING, which is a pass trigger; any other state is unchanged. RESUME (R158): taken in TRIP outside a CRITICAL zone; STATE
otherwise. A wait reason is a WAITING record's alone (R2, R37). -/
def Obligations.HoldAndResumeTaken : Prop :=
  (∀ (l : Life) (r : WaitReason), l.withReason r = match l with | .waiting u _ => .waiting u r | x => x) ∧
  (∀ s : State,
     (s.alloc.holdPort = true → exec (.holdSet []) s = .next s.ok) ∧
     (s.alloc.holdPort = false → s.alloc.opState ≠ .running →
       exec (.holdSet []) s = .next { s with alloc := { s.alloc with holdPort := true } }.ok) ∧
     (s.alloc.holdPort = false → s.alloc.opState = .running →
       ∃ records : Vector Record 48, (∀ i, records.get i = { s.record i with life := (s.life i).withReason .hold }) ∧
         exec (.holdSet []) s = .next { s with
           pool := { s.pool with records := records }, alloc := { s.alloc with holdPort := true, opState := .hold } }.ok) ∧
     (s.alloc.holdPort = false → exec (.holdClear []) s = .next s.ok) ∧
     (s.alloc.holdPort = true → s.alloc.opState = .hold → s.alloc.holdClock = false →
       exec (.holdClear []) s = .next { s with alloc := { s.alloc with
         holdPort := false, opState := .running, passDue := s.alloc.passDue || !s.alloc.reclaiming } }.ok) ∧
     (s.alloc.holdPort = true → (s.alloc.opState ≠ .hold ∨ s.alloc.holdClock = true) →
       exec (.holdClear []) s = .next { s with alloc := { s.alloc with holdPort := false } }.ok)) ∧
  (∀ s : State,
     ((s.alloc.opState ≠ .trip ∨ s.thermal.zone = .critical) → exec (.resume []) s = .next (s.refuse .state)) ∧
     (s.alloc.opState = .trip → s.thermal.zone ≠ .critical →
       exec (.resume []) s = .next { s with alloc := { s.alloc with
         opState := if s.alloc.holdPort || s.alloc.holdClock then .hold else .running
         passDue := s.alloc.passDue || !(s.alloc.holdPort || s.alloc.holdClock || s.alloc.reclaiming) } }.ok))

/-- R175, R184: an argument count other than the command's is answered BAD_ARG, and nothing else changes. EDIT.TAPER's count follows its step
count, and RETIRE has two rows. -/
def Obligations.WrongCountRefused : Prop :=
  ∀ (args : List Byte) (s : State),
    (args.length ≠ 0 → ∀ c ∈ [Instr.start args, .stop args, .restart args, .holdSet args, .holdClear args, .resume args, .configRead args,
      .editCommit args, .editDrop args, .queueRead args, .orderRead args, .loadRead args,
      .clockReturn ⟨args, false⟩, .clockReturn ⟨args, true⟩, .clockRead args,
      .flagsRead args, .identRead args], exec c s = .next (s.refuse .badArg)) ∧
    (args.length ≠ 1 → ∀ c ∈ [Instr.lookupBay args, .bayRead args, .bayUnblock args, .calStart args, .sampleRequest args,
      .sampleRead args], exec c s = .next (s.refuse .badArg)) ∧
    (args.length ≠ 2 → ∀ c ∈ [Instr.ceilingWrite args, .lookupHandle args, .reclaim args, .renew args, .editOpen args],
      exec c s = .next (s.refuse .badArg)) ∧
    (args.length ≠ 3 → ∀ c ∈ [Instr.configWrite args, .bayGate args, .retireGraceful args, .retireImmediate args, .editPut args,
      .flagsClear args, .flagsEnable args], exec c s = .next (s.refuse .badArg)) ∧
    (args.length ≠ 9 → exec (.alloc args) s = .next (s.refuse .badArg)) ∧
    (args.length ≠ 1 + 3 * (args.headD 0).toNat → exec (.editTaper args) s = .next (s.refuse .badArg))

/-! ### Configuration -/

/-- CONFIG.WRITE in the order of checks of R161: no such parameter or out of its range, BAD_ARG; outside STANDBY, STATE; an ordering broken,
BAD_ARG; else that one parameter takes the value. A thermal code that moves the zone is taken as R130 and R131 say: the zone, its flag and
the effective ceiling (R33). -/
def Obligations.ConfigWriteTaken : Prop :=
  ∀ (n hi lo : Byte) (s : State),
    ((∀ r, parameterRanges[n.toNat]? = some r → ¬ (r.1 ≤ u16 hi lo ∧ u16 hi lo ≤ r.2)) →
      exec (.configWrite [n, hi, lo]) s = .next (s.refuse .badArg)) ∧
    ∀ r, parameterRanges[n.toNat]? = some r → r.1 ≤ u16 hi lo → u16 hi lo ≤ r.2 →
      (s.alloc.opState ≠ .standby → exec (.configWrite [n, hi, lo]) s = .next (s.refuse .state)) ∧
      (s.alloc.opState = .standby → ¬ ordered (s.params.values.set n.toNat (u16 hi lo)) →
        exec (.configWrite [n, hi, lo]) s = .next (s.refuse .badArg)) ∧
      (s.alloc.opState = .standby → ordered (s.params.values.set n.toNat (u16 hi lo)) →
        s.thermal.zone = zoneOf s.params s.thermal.filtered →
        ∃ p : Params, p.values = s.params.values.set n.toNat (u16 hi lo) ∧
          (zoneOf p s.thermal.filtered = s.thermal.zone → exec (.configWrite [n, hi, lo]) s = .next { s with params := p }.ok) ∧
          (zoneOf p s.thermal.filtered ≠ s.thermal.zone → s.alloc.reclaiming = false → (∀ q, s.load q = 0) →
            s.alloc.effCeiling = s.alloc.ceiling * s.thermal.zone.factor / 100 →
            exec (.configWrite [n, hi, lo]) s = .next ({ s with
              params := p
              thermal := { s.thermal with zone := zoneOf p s.thermal.filtered }
              alloc := { s.alloc with
                effCeiling := s.alloc.ceiling * (zoneOf p s.thermal.filtered).factor / 100 } }.raise 17).ok))

/-- CEILING.WRITE (R33, R133, R162), but for a fall below some load: a value above 2500 is BAD_ARG; else the ceiling takes the value and the
effective ceiling is floor(value × zone factor / 100); a rise is a pass trigger outside reclaiming, and ends reclaiming, with RECLAIM
raised, when every load fits under it (R139, R140); an equal value and a fall that leaves every load at or below it do nothing more. -/
def Obligations.CeilingWriteTaken : Prop :=
  ∀ (hi lo : Byte) (s : State),
    (2500 < u16 hi lo → exec (.ceilingWrite [hi, lo]) s = .next (s.refuse .badArg)) ∧
    ∀ e, u16 hi lo ≤ 2500 → e = u16 hi lo * s.thermal.zone.factor / 100 →
      ((e = s.alloc.effCeiling ∨ e < s.alloc.effCeiling ∧ s.alloc.reclaiming = false ∧ ∀ p, s.load p ≤ e) →
        exec (.ceilingWrite [hi, lo]) s = .next { s with alloc := { s.alloc with ceiling := u16 hi lo, effCeiling := e } }.ok) ∧
      (s.alloc.effCeiling < e → s.alloc.reclaiming = false →
        exec (.ceilingWrite [hi, lo]) s = .next { s with alloc := { s.alloc with
          ceiling := u16 hi lo, effCeiling := e, passDue := s.alloc.passDue || (s.alloc.opState == OpState.running) } }.ok) ∧
      (s.alloc.effCeiling < e → s.alloc.reclaiming = true → (∃ p, e < s.load p) →
        exec (.ceilingWrite [hi, lo]) s = .next { s with alloc := { s.alloc with ceiling := u16 hi lo, effCeiling := e } }.ok) ∧
      (s.alloc.effCeiling < e → s.alloc.reclaiming = true → (∀ p, s.load p ≤ e) →
        exec (.ceilingWrite [hi, lo]) s = .next ({ s with alloc := { s.alloc with
          ceiling := u16 hi lo, effCeiling := e, reclaiming := false,
          passDue := s.alloc.passDue || (s.alloc.opState == OpState.running) } }.raise 20).ok)

/-- The reclaim measure of a position (R135): the staged grant of every GRANTED record on in it and the active grant of every RETIRING one
whose end cause is not RECLAIM. A CEILING.WRITE that leaves some load above the new effective ceiling runs a reclaim step. Outside
reclaiming it begins it: RECLAIM is raised and every WAITING record waits with BUDGET (R136). The GRANTED records are walked class ascending
and youngest first: one above its floor and on in a position whose measure exceeds the effective ceiling is lowered to its floor, so that
nothing more is lowered once every position fits (R137). Then, in the same order, one whose staged grant is above 0 and that is on in a
position that still does not fit is revoked with cause RECLAIM (R138). What this leaves of every record follows, and that no GRANTED record
on in a position that does not fit keeps a staged grant. -/
def Obligations.CeilingFallReclaims : Prop :=
  (∀ (s : State) (p : Position), s.measure p = ((List.finRange 48).map fun i =>
     match s.life i with
     | .granted u g => if u.onAt p then g.staged else 0
     | .retiring u a c _ => if c ≠ .reclaim ∧ u.onAt p = true then a else 0
     | _ => 0).sum) ∧
  ∀ (hi lo : Byte) (s : State) (e : Nat), u16 hi lo ≤ 2500 → e = u16 hi lo * s.thermal.zone.factor / 100 →
    e < s.alloc.effCeiling → (∃ p, e < s.load p) → s.ListsExact →
    (∃ t, Reclaims { s with alloc := { s.alloc with ceiling := u16 hi lo, effCeiling := e } } t ∧
      exec (.ceilingWrite [hi, lo]) s = .next t.ok) ∧
    ∃ t, exec (.ceilingWrite [hi, lo]) s = .next t ∧ t.alloc.ceiling = u16 hi lo ∧ t.alloc.effCeiling = e ∧
      t.reply = some { code := .ok, body := [] } ∧
      (∀ i, match s.life i with
        | .granted u g => t.life i = .granted u g ∨ u.floor < g.staged ∧ t.life i = .granted u { g with staged := u.floor } ∨
            t.life i = .retiring u g.active .reclaim s.params.retireTimeout
        | .waiting u r => t.life i = .waiting u (if s.alloc.reclaiming then r else .budget)
        | l => t.life i = l) ∧
      (t.alloc.reclaiming = true ↔ ∃ p, e < t.load p) ∧
      (s.alloc.reclaiming = false → t.attention.flags.get flagReclaim = .raisedUnseen) ∧
      (∀ p, e < t.measure p → ∀ i u g, t.life i = .granted u g → u.onAt p = true → g.staged = 0) ∧
      t.alloc.waitQueue = s.alloc.waitQueue ∧ t.alloc.opState = s.alloc.opState ∧ t.pool.freeList = s.pool.freeList ∧
      (∀ b, (t.bay b).enable = (s.bay b).enable ∧ (t.bay b).record = (s.bay b).record) ∧
      t.timer = s.timer ∧ t.thermal = s.thermal ∧ t.clock = s.clock ∧ t.link = s.link ∧ t.params = s.params ∧ t.sampler = s.sampler

/-- BAY.GATE (R160): the bays of the mask take the gate, the others keep theirs; one trigger when some gate of the mask goes from SHUT to
OPEN; a value other than OPEN or SHUT is BAD_ARG. BAY.UNBLOCK (R110): with no block cause OK and no effect; with one and the latest sample
above the stray threshold STATE; else the cause is cleared, which is a pass trigger, and the event set and the flag stay. -/
def Obligations.BayGateAndUnblockTaken : Prop :=
  (∀ (hi lo v : Byte) (s : State),
     (1 < v.toNat → exec (.bayGate [hi, lo, v]) s = .next (s.refuse .badArg)) ∧
     (v.toNat ≤ 1 → ∃ bays : Vector Bay 16,
       (∀ b : BayIdx, bays.get b =
         if (u16 hi lo).testBit b.val then { s.bay b with gate := if v.toNat = 0 then .opened else .shut } else s.bay b) ∧
       ∀ due : Bool, (due = true ↔ s.alloc.opState = .running ∧ s.alloc.reclaiming = false ∧ v.toNat = 0 ∧
           ∃ b : BayIdx, (u16 hi lo).testBit b.val = true ∧ (s.bay b).gate = .shut) →
         exec (.bayGate [hi, lo, v]) s = .next { s with
           bays := bays, alloc := { s.alloc with passDue := s.alloc.passDue || due } }.ok)) ∧
  (∀ (s : State) (b : Byte),
     (15 < b.toNat → exec (.bayUnblock [b]) s = .next (s.refuse .badArg)) ∧
     ∀ h : b.toNat < 16,
       ((s.bay ⟨b.toNat, h⟩).blockCause = .none → exec (.bayUnblock [b]) s = .next s.ok) ∧
       ((s.bay ⟨b.toNat, h⟩).blockCause ≠ .none → s.params.strayThreshold < (s.bay ⟨b.toNat, h⟩).latestSample →
         exec (.bayUnblock [b]) s = .next (s.refuse .state)) ∧
       ((s.bay ⟨b.toNat, h⟩).blockCause ≠ .none → (s.bay ⟨b.toNat, h⟩).latestSample ≤ s.params.strayThreshold →
         exec (.bayUnblock [b]) s = .next { s.setBay ⟨b.toNat, h⟩ { s.bay ⟨b.toNat, h⟩ with blockCause := .none } with
           alloc := { s.alloc with
             passDue := s.alloc.passDue || (s.alloc.opState == OpState.running && !s.alloc.reclaiming) } }.ok))

/-! ### Records -/

/-- R3, R4: a handle is its record's generation × 64 + index; one that names no record, or another life, is answered BAD_HANDLE by every
command that takes a handle. R4: a FREE record is STATE for every command but LOOKUP.HANDLE, a SPENT record for every command but
LOOKUP.HANDLE and RECLAIM. LOOKUP.HANDLE and LOOKUP.BAY (R23): the image of the record named, written out for each of the five states in the
layout of R184, with the presence word of the fields R2 gives that state, an absent field reading 0, and the codes of R186; NO_RECORD for a
bay whose entry is none, BAD_ARG for a bay number above 15; nothing but the reply changes. -/
def Obligations.HandlesResolved : Prop :=
  (∀ (s : State) (hi lo : Byte),
     (∀ i : RecIdx, s.resolve (u16 hi lo) = some i ↔ u16 hi lo = (s.record i).generation.val * 64 + i.val) ∧
     ((∀ i : RecIdx, u16 hi lo ≠ (s.record i).generation.val * 64 + i.val) →
       ∀ c ∈ [Instr.lookupHandle [hi, lo], .retireGraceful [hi, lo, 0], .retireImmediate [hi, lo, 1], .reclaim [hi, lo], .renew [hi, lo],
         .editOpen [hi, lo]], exec c s = .next (s.refuse .badHandle))) ∧
  (∀ (s : State) (hi lo : Byte) (i : RecIdx), s.handle i = u16 hi lo →
     (s.life i = .free → ∀ c ∈ [Instr.retireGraceful [hi, lo, 0], .retireImmediate [hi, lo, 1], .reclaim [hi, lo], .renew [hi, lo],
       .editOpen [hi, lo]], exec c s = .next (s.refuse .state)) ∧
     (∀ u c f, s.life i = .spent u c f → ∀ c ∈ [Instr.retireGraceful [hi, lo, 0], .retireImmediate [hi, lo, 1], .renew [hi, lo],
       .editOpen [hi, lo]], exec c s = .next (s.refuse .state))) ∧
  (∀ (s : State) (i : RecIdx) (hi lo b : Byte),
     (s.handle i = u16 hi lo → exec (.lookupHandle [hi, lo]) s = .next (s.answer .ok (recordImage (s.handle i) (s.life i)))) ∧
     (15 < b.toNat → exec (.lookupBay [b]) s = .next (s.refuse .badArg)) ∧
     (∀ hb : b.toNat < 16, ((s.bay ⟨b.toNat, hb⟩).record = none → exec (.lookupBay [b]) s = .next (s.refuse .noRecord)) ∧
       ((s.bay ⟨b.toNat, hb⟩).record = some i →
         exec (.lookupBay [b]) s = .next (s.answer .ok (recordImage (s.handle i) (s.life i))))) ∧
     let image := recordImage (s.handle i) (s.life i)
     (s.life i = .free → image = be16 (s.handle i) ++ List.replicate 31 0) ∧
     (∀ u r, s.life i = .waiting u r → image = lookupBody (s.handle i) 1 0b000010011 u 0 0 0 0 0 r.code 0 0 0 0 0) ∧
     (∀ u g, s.life i = .granted u g →
       image = lookupBody (s.handle i) 2
         (0b000100011 + (if g.leaseLeft = none then 0 else 0b100) + (if g.taperState = none then 0 else 0b1000)) u g.active g.staged
         (match g.leaseLeft with | some n => n | none => 0) (match g.taperState with | some ts => ts.step | none => 0)
         (match g.taperState with | some ts => ts.left | none => 0) 0 g.strikes g.strikeWindowLeft 0 0 0) ∧
     (∀ u a c n, s.life i = .retiring u a c n →
       image = lookupBody (s.handle i) 3 0b101000011 u a 0 0 0 0 0 0 0 c.code 0 n) ∧
     (∀ u c f, s.life i = .spent u c f →
       image = lookupBody (s.handle i) 4 0b011000011 u 0 0 0 0 0 0 0 0 c.code (if f then 1 else 0) 0)) ∧
  [Origin.link, .port].map Origin.code = [0, 1] ∧
  [EndCause.released, .withdrawn, .leaseEnd, .taperEnd, .overdraw, .retiredByPort, .reclaim, .trip].map EndCause.code =
    [1, 2, 3, 4, 5, 6, 7, 8] ∧
  [WaitReason.none, .budget, .closeLimit, .blocked, .calibrating, .gated, .hold].map WaitReason.code = [0, 1, 2, 3, 4, 5, 6]

/-- ALLOC (R11, R13) in its order of checks: an argument out of range, BAD_ARG; a bay whose entry names a record, BAY_TAKEN; an empty free
list, NO_RECORD with POOL_FULL raised; else a PORT record is created and the reply carries its handle. -/
def Obligations.AllocTaken : Prop :=
  ∀ (s : State) (b cls rh rl fh fl lease mask value : Byte),
    (15 < b.toNat ∨ ¬ requestInRange cls.toNat (u16 rh rl) (u16 fh fl) mask.toNat value.toNat →
      exec (.alloc [b, cls, rh, rl, fh, fl, lease, mask, value]) s = .next (s.refuse .badArg)) ∧
    ∀ hb : b.toNat < 16, requestInRange cls.toNat (u16 rh rl) (u16 fh fl) mask.toNat value.toNat →
      ((s.bay ⟨b.toNat, hb⟩).record ≠ none →
        exec (.alloc [b, cls, rh, rl, fh, fl, lease, mask, value]) s = .next (s.refuse .bayTaken)) ∧
      ((s.bay ⟨b.toNat, hb⟩).record = none → s.pool.freeList = [] →
        exec (.alloc [b, cls, rh, rl, fh, fl, lease, mask, value]) s = .next ((s.raise 16).refuse .noRecord)) ∧
      (∀ i rest, (s.bay ⟨b.toNat, hb⟩).record = none → s.pool.freeList = i :: rest →
        ∃ t, Creates s t i rest ⟨b.toNat, hb⟩
            (createdTerms ⟨b.toNat, hb⟩ .port cls.toNat (u16 rh rl) (u16 fh fl) lease.toNat mask.toNat value.toNat) ∧
          exec (.alloc [b, cls, rh, rl, fh, fl, lease, mask, value]) s = .next (t.answer .ok (be16 (s.handle i))))

/-- RETIRE GRACEFUL (R14, R15, R17): WAITING is withdrawn, GRANTED enters RETIRING with RETIRED_BY_PORT, RETIRING is left as it is; all
reply OK. A mode other than GRACEFUL or IMMEDIATE is BAD_ARG. RETIRE IMMEDIATE (R14, R18, R19): WAITING is withdrawn, GRANTED enters SPENT
with RETIRED_BY_PORT, RETIRING enters SPENT with the cause it had; none is forced and no bay is blocked; all reply OK. -/
def Obligations.RetireTaken : Prop :=
  (∀ (s : State) (hi lo : Byte) (i : RecIdx), s.handle i = u16 hi lo →
     (∀ u r, s.life i = .waiting u r →
       ∃ t, EntersSpent s t i u .withdrawn false ∧ exec (.retireGraceful [hi, lo, 0]) s = .next t.ok) ∧
     (∀ u g, s.life i = .granted u g →
       ∃ t, EntersRetiring s t i u g .retiredByPort ∧ exec (.retireGraceful [hi, lo, 0]) s = .next t.ok) ∧
     (∀ u a c n, s.life i = .retiring u a c n → exec (.retireGraceful [hi, lo, 0]) s = .next s.ok) ∧
     (∀ mode : Byte, 1 < mode.toNat → exec (.retireGraceful [hi, lo, mode]) s = .next (s.refuse .badArg))) ∧
  (∀ (s : State) (hi lo : Byte) (i : RecIdx), s.handle i = u16 hi lo →
     (∀ u r, s.life i = .waiting u r →
       ∃ t, EntersSpent s t i u .withdrawn false ∧ exec (.retireImmediate [hi, lo, 1]) s = .next t.ok) ∧
     (∀ u g, s.life i = .granted u g →
       ∃ t, EntersSpent s t i u .retiredByPort false ∧ exec (.retireImmediate [hi, lo, 1]) s = .next t.ok) ∧
     (∀ u a c n, s.life i = .retiring u a c n →
       ∃ t, EntersSpent s t i u c false ∧ exec (.retireImmediate [hi, lo, 1]) s = .next t.ok))

/-- RECLAIM (R9, R22, R179): a SPENT record becomes FREE at the tail of the free list with its generation advanced, 1023 followed by 0; the
bay's last spent handle becomes none when it named the reclaimed life; a window on the record is overtaken; any other state is STATE. -/
def Obligations.ReclaimTaken : Prop :=
  ∀ (s : State) (hi lo : Byte) (i : RecIdx), s.handle i = u16 hi lo →
    ((∀ u c f, s.life i ≠ .spent u c f) → exec (.reclaim [hi, lo]) s = .next (s.refuse .state)) ∧
    (∀ u c f, s.life i = .spent u c f →
      ∃ t : State, exec (.reclaim [hi, lo]) s = .next t.ok ∧
        t.life i = .free ∧ (t.record i).generation.val = ((s.record i).generation.val + 1) % 1024 ∧
        (∀ j, j ≠ i → t.record j = s.record j) ∧ t.pool.freeList = s.pool.freeList ++ [i] ∧
        t.bay u.bay = { s.bay u.bay with
          lastSpent := if (s.bay u.bay).lastSpent = some (s.handle i) then none else (s.bay u.bay).lastSpent } ∧
        (∀ b, b ≠ u.bay → t.bay b = s.bay b) ∧
        t.pool.edit = s.pool.edit.map (fun w => { w with stale := w.stale || decide (w.handle % 64 = i.val) }) ∧
        (∀ f, t.attention.flags.get f =
          if f = flagEditStale ∧ s.pool.edit.any (fun w => w.handle % 64 == i.val && !w.stale) = true then .raisedUnseen
          else s.attention.flags.get f) ∧
        t = { s with pool := t.pool, bays := t.bays, attention := { s.attention with flags := t.attention.flags } })

/-- RENEW from the port (R63, R4): a handle that names no record, or another life, is BAD_HANDLE; a FREE and a SPENT record is STATE; a
GRANTED record with a lease has lease remaining loaded with the lease length; WAITING and a record without a lease change nothing; both
reply OK; RETIRING is STATE. The next state is written whole, so no field, window, event or flag changes beside what it names. -/
def Obligations.RenewTaken : Prop :=
  ∀ (s : State) (hi lo : Byte),
    ((∀ i : RecIdx, s.handle i ≠ u16 hi lo) → exec (.renew [hi, lo]) s = .next (s.refuse .badHandle)) ∧
    ∀ i : RecIdx, s.handle i = u16 hi lo →
      (s.life i = .free → exec (.renew [hi, lo]) s = .next (s.refuse .state)) ∧
      (∀ u c f, s.life i = .spent u c f → exec (.renew [hi, lo]) s = .next (s.refuse .state)) ∧
      (∀ u r, s.life i = .waiting u r → exec (.renew [hi, lo]) s = .next s.ok) ∧
      (∀ u g, s.life i = .granted u g → u.leaseLength = 0 → exec (.renew [hi, lo]) s = .next s.ok) ∧
      (∀ u g, s.life i = .granted u g → u.leaseLength ≠ 0 →
        exec (.renew [hi, lo]) s = .next (s.setLife i (.granted u { g with leaseLeft := some u.leaseLength })).ok) ∧
      (∀ u a c n, s.life i = .retiring u a c n → exec (.renew [hi, lo]) s = .next (s.refuse .state))

/-! ### The edit window -/

/-- EDIT.OPEN (R177): a WAITING or GRANTED record opens the window on its handle with a copy of its editable fields, no field changed and the
mark clear, or BUSY while a window is open; a RETIRING record is STATE. -/
def Obligations.EditOpenTaken : Prop :=
  ∀ (s : State) (hi lo : Byte) (i : RecIdx), s.handle i = u16 hi lo →
    (∀ u a c n, s.life i = .retiring u a c n → exec (.editOpen [hi, lo]) s = .next (s.refuse .state)) ∧
    ∀ u : Terms, ((∃ r, s.life i = .waiting u r) ∨ ∃ g, s.life i = .granted u g) →
      (s.pool.edit ≠ none → exec (.editOpen [hi, lo]) s = .next (s.refuse .busy)) ∧
      (s.pool.edit = none → ∃ body, exec (.editOpen [hi, lo]) s = .next ({ s with pool := { s.pool with edit := some {
          handle := s.handle i,
          copy := {
            cls := u.cls, requested := u.requested, floor := u.floor, mask := u.mask, value := u.value,
            leaseLength := u.leaseLength, taper := u.taper },
          changed := { cls := false, requested := false, floor := false, leaseLength := false, pattern := false, taper := false },
          stale := false } } }.answer .ok body) ∧
        body = [byteOf u.cls.val] ++ be16 u.requested ++ be16 u.floor ++ [byteOf u.mask.toNat, byteOf u.value.toNat,
          byteOf u.leaseLength, byteOf u.taper.length] ++ u.taper.flatMap (fun st => be16 st.current ++ [byteOf st.periods]))

/-- EDIT.PUT (R178): an unknown field or a value out of its range is BAD_ARG; with the window CLOSED, STATE; else the copy's field takes the
value and the field joins the changed-field set, STALE or not. EDIT.TAPER (R178): the list of 0 to 8 steps replaces the copy's; a count
above 8, a current above 630 or a duration of 0 is BAD_ARG; with the window CLOSED, STATE. -/
def Obligations.EditPutAndTaperTaken : Prop :=
  (∀ (s : State) (field hi lo : Byte),
     let bad := 4 < field.toNat ∨ field.toNat = 0 ∧ 3 < u16 hi lo ∨ field.toNat = 1 ∧ (u16 hi lo = 0 ∨ 630 < u16 hi lo) ∨
       field.toNat = 2 ∧ 630 < u16 hi lo ∨ field.toNat = 3 ∧ 255 < u16 hi lo ∨ field.toNat = 4 ∧ (63 < hi.toNat ∨ 63 < lo.toNat)
     (bad → exec (.editPut [field, hi, lo]) s = .next (s.refuse .badArg)) ∧
     (¬ bad → s.pool.edit = none → exec (.editPut [field, hi, lo]) s = .next (s.refuse .state)) ∧
     ∀ w, s.pool.edit = some w →
       (∀ h : u16 hi lo < 4, exec (.editPut [0, hi, lo]) s = .next { s with pool := { s.pool with edit := some { w with
         copy := { w.copy with cls := ⟨u16 hi lo, h⟩ }, changed := { w.changed with cls := true } } } }.ok) ∧
       (1 ≤ u16 hi lo → u16 hi lo ≤ 630 → exec (.editPut [1, hi, lo]) s = .next { s with pool := { s.pool with edit := some { w with
         copy := { w.copy with requested := u16 hi lo }, changed := { w.changed with requested := true } } } }.ok) ∧
       (u16 hi lo ≤ 630 → exec (.editPut [2, hi, lo]) s = .next { s with pool := { s.pool with edit := some { w with
         copy := { w.copy with floor := u16 hi lo }, changed := { w.changed with floor := true } } } }.ok) ∧
       (u16 hi lo ≤ 255 → exec (.editPut [3, hi, lo]) s = .next { s with pool := { s.pool with edit := some { w with
         copy := { w.copy with leaseLength := u16 hi lo }, changed := { w.changed with leaseLength := true } } } }.ok) ∧
       (hi.toNat ≤ 63 → lo.toNat ≤ 63 → exec (.editPut [4, hi, lo]) s = .next { s with pool := { s.pool with edit := some { w with
         copy := { w.copy with mask := hi.setWidth 6, value := lo.setWidth 6 }, changed := { w.changed with pattern := true } } } }.ok)) ∧
  (∀ (s : State) (steps : List (Byte × Byte × Byte)),
     let args := byteOf steps.length :: steps.flatMap fun x => [x.1, x.2.1, x.2.2]
     let good := ∀ x ∈ steps, u16 x.1 x.2.1 ≤ 630 ∧ 1 ≤ x.2.2.toNat
     steps.length ≤ 80 →
     (8 < steps.length ∨ ¬ good → exec (.editTaper args) s = .next (s.refuse .badArg)) ∧
     (steps.length ≤ 8 → good → s.pool.edit = none → exec (.editTaper args) s = .next (s.refuse .state)) ∧
     (steps.length ≤ 8 → good → ∀ w, s.pool.edit = some w →
       exec (.editTaper args) s = .next { s with pool := { s.pool with edit := some { w with
         copy := { w.copy with taper := steps.map (fun x : Byte × Byte × Byte => { current := u16 x.1 x.2.1, periods := x.2.2.toNat }) }
         changed := { w.changed with taper := true } } } }.ok))

/-- EDIT.COMMIT without a change to apply, and EDIT.DROP (R177, R180): a CLOSED window is STATE; an OPEN one is closed by both, and the
commit of a STALE window replies STALE, of one with no field changed OK. A refused commit (R24, R180) closes the window and applies nothing:
STATE for a closed field of a GRANTED record, else BAD_ARG for a floor above the requested value, a value bit outside the mask, a lease
length of 0 on a LINK record, or, in GRANTED, a floor above the staged grant the change leaves. -/
def Obligations.EditWindowClosed : Prop :=
  (∀ s : State,
     (s.pool.edit = none → exec (.editCommit []) s = .next (s.refuse .state) ∧ exec (.editDrop []) s = .next (s.refuse .state)) ∧
     ∀ w, s.pool.edit = some w →
       exec (.editDrop []) s = .next { s with pool := { s.pool with edit := none } }.ok ∧
       (w.stale = true → exec (.editCommit []) s = .next ({ s with pool := { s.pool with edit := none } }.refuse .stale)) ∧
       (w.stale = false →
         w.changed = { cls := false, requested := false, floor := false, leaseLength := false, pattern := false, taper := false } →
         exec (.editCommit []) s = .next { s with pool := { s.pool with edit := none } }.ok)) ∧
  (∀ (s : State) (w : EditWindow) (i : RecIdx), s.pool.edit = some w → w.stale = false → w.changed.any = true → s.handle i = w.handle →
     ∀ u : Terms,
       let v := u.changed w.changed w.copy
       let bad := v.requested < v.floor ∨ (∃ k : Fin 6, v.value.getLsbD k = true ∧ v.mask.getLsbD k = false) ∨
         v.leaseLength = 0 ∧ v.origin = .link
       (∀ r, s.life i = .waiting u r → bad →
         exec (.editCommit []) s = .next ({ s with pool := { s.pool with edit := none } }.refuse .badArg)) ∧
       (∀ g, s.life i = .granted u g → w.changed.cls = true ∨ w.changed.pattern = true →
         exec (.editCommit []) s = .next ({ s with pool := { s.pool with edit := none } }.refuse .state)) ∧
       (∀ g, s.life i = .granted u g → w.changed.cls = false → w.changed.pattern = false →
         bad ∨ min g.staged v.requested < v.floor →
         exec (.editCommit []) s = .next ({ s with pool := { s.pool with edit := none } }.refuse .badArg)))

/-- The terms a change leaves: the changed fields from the copy, the others as they were (R24). A commit that passes its checks applies all
its fields in one step, marks the window STALE with EDIT_STALE raised and closes it (R25, R179, R180, log 5). A WAITING record keeps its
place unless its class is rewritten, and then enters the queue again by its new class with the entry reason of R13, or its old one in
RUNNING outside reclaiming (log 7), which is a trigger. A GRANTED record's staged grant falls to a lower requested value, its lease count
and taper follow R25, and its load follows R30: a fall is a pass trigger, and ends reclaiming, with RECLAIM raised, when every load then fits
(R39, R139, R140). -/
def Obligations.EditCommitApplied : Prop :=
  (∀ (t : Terms) (ch : ChangedFields) (c : EditCopy),
     t.changed ch c = { t with
       cls := if ch.cls then c.cls else t.cls
       requested := if ch.requested then c.requested else t.requested
       floor := if ch.floor then c.floor else t.floor
       mask := if ch.pattern then c.mask else t.mask
       value := if ch.pattern then c.value else t.value
       leaseLength := if ch.leaseLength then c.leaseLength else t.leaseLength
       taper := if ch.taper then c.taper else t.taper }) ∧
  (∀ (s : State) (w : EditWindow) (i : RecIdx), s.pool.edit = some w → w.stale = false → w.changed.any = true → s.handle i = w.handle →
     ∀ u : Terms,
       let v := u.changed w.changed w.copy
       v.floor ≤ v.requested → (∀ k : Fin 6, v.value.getLsbD k = true → v.mask.getLsbD k = true) →
       (v.leaseLength = 0 → v.origin = .port) →
       (∀ r, s.life i = .waiting u r →
         (w.changed.cls = false → exec (.editCommit []) s = .next { (s.setLife i (.waiting v r)).raise flagEditStale with
           pool := { (s.setLife i (.waiting v r)).pool with edit := none } }.ok) ∧
         (w.changed.cls = true →
           ∃ r', (s.alloc.opState ≠ .running → r' = .hold) ∧
             (s.alloc.opState = .running → s.alloc.reclaiming = true → r' = .budget) ∧
             (s.alloc.opState = .running → s.alloc.reclaiming = false → r' = r) ∧
             ∃ l1 l2, s.alloc.waitQueue.filter (· ≠ i) = l1 ++ l2 ∧ (∀ j ∈ l2, s.classOf j < v.cls) ∧
               (∀ j ∈ l1.getLast?, v.cls ≤ s.classOf j) ∧
               exec (.editCommit []) s = .next { (s.setLife i (.waiting v r')).raise flagEditStale with
                 pool := { (s.setLife i (.waiting v r')).pool with edit := none }
                 alloc := { s.alloc with
                   waitQueue := l1 ++ i :: l2
                   passDue := s.alloc.passDue || (s.alloc.opState == OpState.running && !s.alloc.reclaiming) } }.ok)) ∧
       (∀ g, s.life i = .granted u g → w.changed.cls = false → w.changed.pattern = false → v.floor ≤ min g.staged v.requested →
         let g' : Grant := { g with
           staged := if w.changed.requested then min g.staged v.requested else g.staged
           leaseLeft := if w.changed.leaseLength then
             (if v.leaseLength = 0 then none else if u.leaseLength = 0 then some v.leaseLength else g.leaseLeft) else g.leaseLeft
           taperState := if w.changed.taper then
             (match v.taper with
               | [] => none
               | st :: _ => some { step := 0, left := st.periods, unopened := true }) else g.taperState }
         ∃ t, Regrants s t i u g v g' ∧ t.attention.flags.get flagEditStale = .raisedUnseen ∧
           exec (.editCommit []) s = .next { t with pool := { t.pool with edit := none } }.ok))

/-! ### Commands that report, and the commands on bays, samples and flags -/

/-- The reporting commands (R51, R52, R53, R99, R153, R163, R176, R184) change nothing but the reply: OK with the body of the layout of R184,
its codes those of R186, or BAD_ARG for a bay above 15 or a channel above 17. QUEUE.READ lists the WAITING records in queue order, ORDER.READ
the GRANTED ones in grant order; an EMPTY filtered code reads 255; a bay's empty answer slot reads code 0 with handle 65535 (log 18). -/
def Obligations.ReportsOnlyReply : Prop :=
  (∀ s : State,
    exec (.queueRead []) s = .next (s.answer .ok s.queueImage) ∧
    (∀ (u : RecIdx → Terms) (r : RecIdx → WaitReason), (∀ i ∈ s.alloc.waitQueue, s.life i = .waiting (u i) (r i)) →
      s.queueImage = byteOf s.alloc.waitQueue.length :: s.alloc.waitQueue.flatMap fun i =>
        be16 (s.handle i) ++ [byteOf (u i).bay.val, byteOf (u i).cls.val] ++ be16 (u i).requested ++ be16 (u i).floor ++
          [byteOf (r i).code]) ∧
    exec (.orderRead []) s = .next (s.answer .ok s.orderImage) ∧
    (∀ (u : RecIdx → Terms) (g : RecIdx → Grant), (∀ i ∈ s.alloc.grantOrder, s.life i = .granted (u i) (g i)) →
      s.orderImage = byteOf s.alloc.grantOrder.length :: s.alloc.grantOrder.flatMap fun i =>
        be16 (s.handle i) ++ [byteOf (u i).bay.val, byteOf (u i).cls.val] ++ be16 (u i).floor ++ be16 (u i).requested ++
          be16 (g i).staged ++ be16 (g i).active) ∧
    exec (.loadRead []) s = .next (s.answer .ok s.loadImage) ∧
    s.loadImage = (List.finRange 64).flatMap (fun p => be16 (s.load p)) ++ be16 s.alloc.ceiling ++ [byteOf s.thermal.zone.factor] ++
      be16 s.alloc.effCeiling ++ [if s.alloc.reclaiming then 1 else 0] ∧
    exec (.configRead []) s = .next (s.answer .ok s.configImage) ∧
    s.configImage = be16 s.params.periodLength ++ be16 s.params.tolerance ++ be16 s.params.strikeLimit ++ be16 s.params.strikeWindow ++
      be16 s.params.closeLimit ++ be16 s.params.closeWindow ++ be16 s.params.retireTimeout ++ be16 s.params.restThreshold ++
      be16 s.params.strayThreshold ++ be16 s.params.feedMargin ++ be16 s.params.squeezeClasses.toNat ++ be16 s.params.warmCode ++
      be16 s.params.hotCode ++ be16 s.params.criticalCode ++ be16 s.params.hysteresis ++ be16 s.params.calSettle ++
      be16 s.params.bandLow ++ be16 s.params.bandHigh ++ be16 s.alloc.ceiling ++
      [byteOf s.alloc.opState.code, if s.alloc.holdPort then 1 else 0, if s.alloc.holdClock then 1 else 0,
        match s.thermal.filtered with | some f => byteOf f | none => 255, byteOf s.thermal.zone.code,
        if s.timer.running then 1 else 0] ++
      be16 s.timer.ms ++ [byteOf s.timer.position.val] ++ be16 s.closeWindowLeft ∧
    exec (.clockRead []) s = .next (s.answer .ok s.clockImage) ∧
    s.clockImage = [byteOf s.clock.state.code] ++ be16 s.clock.latestCount ++
      [if s.clock.countValid then 1 else 0, if s.clock.returnPending then 1 else 0, byteOf s.clock.goodWindows,
        if s.alloc.holdClock then 1 else 0] ∧
    exec (.identRead []) s = .next (s.answer .ok [0x5E, 0x20, 0x06, 0x54, 0x20]) ∧
    (∀ b : Byte, (15 < b.toNat → exec (.bayRead [b]) s = .next (s.refuse .badArg)) ∧
      ∀ h : b.toNat < 16, exec (.bayRead [b]) s = .next (s.answer .ok (s.bayImage ⟨b.toNat, h⟩)) ∧
        let y := s.bay ⟨b.toNat, h⟩
        s.bayImage ⟨b.toNat, h⟩ = [b] ++
          be16 (match y.record with | some i => s.handle i | none => 65535) ++
          be16 (match y.lastSpent with | some n => n | none => 65535) ++
          [byteOf ((if y.events.admitted then 1 else 0) + (if y.events.spent then 2 else 0) + (if y.events.calDone then 4 else 0) +
              (if y.events.blocked then 8 else 0)),
            byteOf y.presence.code, byteOf y.missCount] ++
          (match y.answer with | some a => byteOf a.code.code :: be16 a.handle | none => [0, 255, 255]) ++
          [byteOf y.gate.code, byteOf y.enable.code, byteOf y.blockCause.code] ++ be16 y.limit ++ be16 y.inEffectDuty ++
          be16 (match y.decreaseGrace with | some n => n | none => 0) ++
          [byteOf y.closeCount, byteOf y.calState.code, byteOf y.lastResult.code, BitVec.ofInt 8 y.offset] ++ be16 y.latestSample) ∧
    ∀ c : Byte, (17 < c.toNat → exec (.sampleRead [c]) s = .next (s.refuse .badArg)) ∧
      ∀ h : c.toNat < 18, exec (.sampleRead [c]) s = .next (s.answer .ok
        ((if (s.sampler.holders.get ⟨c.toNat, h⟩).ready then 1 else 0) :: be16 (s.sampler.holders.get ⟨c.toNat, h⟩).result))) ∧
  [WaitReason.none, .budget, .closeLimit, .blocked, .calibrating, .gated, .hold].map WaitReason.code = [0, 1, 2, 3, 4, 5, 6] ∧
  [OpState.standby, .running, .hold, .trip].map OpState.code = [0, 1, 2, 3] ∧
  [Zone.normal, .warm, .hot, .critical].map Zone.code = [0, 1, 2, 3] ∧
  [ClockState.starting, .reference, .fallback].map ClockState.code = [0, 1, 2] ∧
  [Presence.absent, .present].map Presence.code = [0, 1] ∧ [Gate.opened, .shut].map Gate.code = [0, 1] ∧
  [Enable.opened, .closed].map Enable.code = [0, 1] ∧ [BlockCause.none, .stray, .forcedOpen].map BlockCause.code = [0, 1, 2] ∧
  [CalState.idle, .settling, .sampling].map CalState.code = [0, 1, 2] ∧
  [CalResult.none, .pass, .notQuiet, .outOfRange, .aborted].map CalResult.code = [0, 1, 2, 3, 4] ∧
  [AnswerCode.accepted, .already, .noRecord, .badArg, .badHandle, .expired, .closed, .refused].map AnswerCode.code =
    [1, 2, 3, 4, 5, 6, 7, 8]

/-- CAL.START (R117): STATE in TRIP, on a bay whose record is GRANTED or RETIRING, whose enable is CLOSED or whose calibration is in
progress; else the calibration starts SETTLING with the cal settle count and no samples, and a settle count of the latest boundary still
outstanding for the bay is dropped (R119, log 3). SAMPLE.REQUEST (R96, R98): BUSY while a PORT
request of the channel is pending or in conversion; else the holder's mark becomes no, its result stays and the channel joins the set of
PORT requests. -/
def Obligations.CalStartAndSampleRequestTaken : Prop :=
  (∀ (s : State) (b : Byte),
     (15 < b.toNat → exec (.calStart [b]) s = .next (s.refuse .badArg)) ∧
     ∀ h : b.toNat < 16,
       let y := s.bay ⟨b.toNat, h⟩
       let refused := s.alloc.opState = .trip ∨ (∃ i, y.record = some i ∧ (s.life i).holdsLoad = true) ∨ y.enable = .closed ∨
         y.calState ≠ .idle
       (refused → exec (.calStart [b]) s = .next (s.refuse .state)) ∧
       (¬ refused → exec (.calStart [b]) s = .next { s.setBay ⟨b.toNat, h⟩ { y with
           calState := .settling, settleLeft := s.params.calSettle, samplesTaken := 0, sampleSum := 0 } with
         timer := { s.timer with outstanding := s.timer.outstanding.filter (· ≠ BoundaryPart.settle ⟨b.toNat, h⟩) } }.ok)) ∧
  (∀ (s : State) (c : Byte),
     (17 < c.toNat → exec (.sampleRequest [c]) s = .next (s.refuse .badArg)) ∧
     ∀ h : c.toNat < 18,
       let ch : Channel := ⟨c.toNat, h⟩
       let busy := ch ∈ s.sampler.portRequests ∨ s.sampler.current = some { kind := .port, channel := ch }
       (busy → exec (.sampleRequest [c]) s = .next (s.refuse .busy)) ∧
       (¬ busy → ∃ (holders : Vector Holder 18) (requests : List Channel),
         (∀ d, holders.get d = if d = ch then { ready := false, result := (s.sampler.holders.get ch).result } else s.sampler.holders.get d) ∧
         (∀ d, d ∈ requests ↔ d = ch ∨ d ∈ s.sampler.portRequests) ∧ requests.Pairwise (· < ·) ∧
         exec (.sampleRequest [c]) s = .next { s with sampler := { s.sampler with holders := holders, portRequests := requests } }.ok))

/-- FLAGS.READ (R182): the reply holds the 22 flag states, the enables and the 16 event sets as they stand, and every unseen flag becomes
seen; nothing else changes, so the attention line stays (R183). FLAGS.CLEAR (R182): each seen flag of the mask is lowered, and a bay flag
lowered empties its bay's event set; unseen flags and flags outside the mask stay. FLAGS.ENABLE: each enable takes its bit, and no flag
changes. The mask is the low 22 bits of three bytes. -/
def Obligations.FlagCommandsTaken : Prop :=
  (∀ s : State, ∃ t, exec (.flagsRead []) s = .next t ∧
     (∀ f, t.attention.flags.get f =
       if s.attention.flags.get f = .raisedUnseen then .raisedSeen else s.attention.flags.get f) ∧
     t = { s with
       attention := { s.attention with flags := t.attention.flags }
       reply := some {
         code := .ok
         body := (List.finRange 22).map (fun f => byteOf (s.attention.flags.get f).code) ++ be24 s.attention.enables.toNat ++
           (List.finRange 16).map (fun b => byteOf (s.bay b).events.code) } } ∧
     t.attentionLine = s.attentionLine) ∧
  (∀ (s : State) (b2 b1 b0 : Byte),
     let mask := b2.toNat * 65536 + b1.toNat * 256 + b0.toNat
     (∃ t, exec (.flagsClear [b2, b1, b0]) s = .next t ∧
       (∀ f : Flag, t.attention.flags.get f =
         if mask.testBit f.val = true ∧ s.attention.flags.get f = .raisedSeen then .lowered else s.attention.flags.get f) ∧
       (∀ b : BayIdx, t.bay b =
         if mask.testBit b.val = true ∧ s.attention.flags.get (bayFlag b) = .raisedSeen then
           { s.bay b with events := { admitted := false, spent := false, calDone := false, blocked := false } }
         else s.bay b) ∧
       t = { s with
         attention := { s.attention with flags := t.attention.flags }, bays := t.bays
         reply := some { code := .ok, body := [] } }) ∧
     ∃ t, exec (.flagsEnable [b2, b1, b0]) s = .next t ∧
       (∀ f : Flag, t.attention.enables.getLsbD f.val = mask.testBit f.val) ∧
       t = { s with
         attention := { s.attention with enables := t.attention.enables }, reply := some { code := .ok, body := [] } })

/-- R183: the attention line is asserted exactly while at least one flag is RAISED_UNSEEN or RAISED_SEEN and has enable yes, so it follows
every raise, FLAGS.CLEAR, FLAGS.ENABLE and RESTART at once; FLAGS.READ leaves it as it is; after device reset it is deasserted. -/
def Obligations.AttentionLineFollowsFlags : Prop :=
  (∀ s : State, s.attentionLine = true ↔
    ∃ f : Flag, (s.attention.flags.get f = .raisedUnseen ∨ s.attention.flags.get f = .raisedSeen) ∧
      s.attention.enables.getLsbD f.val = true) ∧
  (∀ (s : State) (f : Flag), s.attention.enables.getLsbD f.val = true → (s.raise f).attentionLine = true) ∧
  (∀ s : State, ∃ t, exec (.flagsRead []) s = .next t ∧ t.attentionLine = s.attentionLine) ∧
  (∀ s : State, ∃ t, exec (.restart []) s = .next t ∧ t.attentionLine = false) ∧
  ∀ s : State, ∃ t, exec .deviceReset s = .next t ∧ t.attentionLine = false

/-- A code that names no command is answered BAD_COMMAND, and an aborted transaction is discarded (R174): neither has any other effect.
R174, R184: for every code and every argument list of at most 255 bytes, a transaction of the code, the count and the arguments spells the
command of that code with those arguments, whatever bytes follow; codes 0 and 36 to 255 name no command; every transaction without its last
argument byte is aborted. On the line a byte is eight bits, most significant first, and the bits of whole bytes spell the transaction of
those bytes; bits short of a byte are none. That an aborted transaction leaves no reply standing is the model's choice (log 15; R174 only discards
it), and so is that the bytes of a CLOCK.RETURN do not say when it arrives (log 13). -/
def Obligations.TransactionsSpellCommands : Prop :=
  (∀ (s : State) (code : Byte) (bytes : List Byte),
     exec (.badCommand code bytes) s = .next { s with reply := some { code := .badCommand, body := [] } } ∧
     exec (.transactionAbort bytes) s = .next { s with reply := none }) ∧
  portCommands.length = 35 ∧
  (∀ (code : Byte) (args more : List Byte), args.length ≤ 255 →
     (∀ c, 1 ≤ code.toNat → portCommands[code.toNat - 1]? = some c →
       transact (code :: byteOf args.length :: (args ++ more)) = c args) ∧
     (code.toNat = 0 ∨ 36 ≤ code.toNat → transact (code :: byteOf args.length :: (args ++ more)) = .badCommand code args)) ∧
  (∀ sent : List Byte, (sent.length < 2 ∨ ∃ code count args, sent = code :: count :: args ∧ args.length < count.toNat) →
     transact sent = .transactionAbort sent) ∧
  (transact [1, 0] = .start [] ∧ transact [6, 0] = .resume [] ∧ transact [7, 3, 0, 0, 200] = .configWrite [0, 0, 200] ∧
     transact [9, 2, 7, 208, 0, 0] = .ceilingWrite [7, 208] ∧ transact [14, 3, 0, 64, 0] = .retireGraceful [0, 64, 0] ∧
     transact [14, 3, 0, 64, 1] = .retireImmediate [0, 64, 1] ∧ transact [16, 2, 0, 5] = .renew [0, 5] ∧
     transact [17, 2, 0, 5] = .editOpen [0, 5] ∧ transact [25, 1, 3] = .bayRead [3] ∧ transact [35, 0, 0, 0] = .identRead [] ∧
     transact [0, 1, 9] = .badCommand 0 [9] ∧ transact [36, 0] = .badCommand 36 [] ∧ transact [255, 0] = .badCommand 255 [] ∧
     transact [16, 2, 0] = .transactionAbort [16, 2, 0] ∧ transact [] = .transactionAbort []) ∧
  ∀ (bytes : List Byte) (rest : List Bool), rest.length < 8 →
    transactBits (bytes.flatMap (fun b => (List.range 8).map fun k => b.getLsbD (7 - k)) ++ rest) = transact bytes

/-! ### The Clock Monitor -/

/-- CLOCK.RETURN (R149): STATE outside FALLBACK, BUSY while a return is pending, else a return is pending with no good window, and the
window in progress will not count, unless the command came together with the window's beginning and was taken after it (log 13). The end of
a check window in STARTING and REFERENCE (R146, R147, R148, R151): the count, stopping at 65535, is latched and valid and the next window
begins; it is good from band low to band high. A good one in STARTING enters REFERENCE; a bad one in REFERENCE enters FALLBACK, cancels a
return, raises CLOCK and sets the hold reason CLOCK; the others change nothing more. The end of a check window in FALLBACK (R149, R150,
R151): with no return pending, or in the window that was in progress at CLOCK.RETURN, only the count is latched; a bad window cancels the
return and raises CLOCK; a first good one is counted; the second completes the return: REFERENCE, CLOCK raised, and the hold reason CLOCK
cleared, which leaves HOLD for RUNNING, a pass trigger, unless PORT is set. -/
def Obligations.CheckWindowJudged : Prop :=
  (∀ (s : State) (together : Bool),
     (s.clock.state ≠ .fallback → exec (.clockReturn ⟨[], together⟩) s = .next (s.refuse .state)) ∧
     (s.clock.state = .fallback → s.clock.returnPending = true → exec (.clockReturn ⟨[], together⟩) s = .next (s.refuse .busy)) ∧
     (s.clock.state = .fallback → s.clock.returnPending = false →
       exec (.clockReturn ⟨[], together⟩) s = .next { s with clock := { s.clock with
         returnPending := true, goodWindows := 0, windowPredatesReturn := !(together && s.clock.windowFresh) } }.ok)) ∧
  (∀ (cycles : Nat) (s : State),
     let n := min 65535 (s.clock.windowCycles + cycles)
     let good := s.params.bandLow ≤ n ∧ n ≤ s.params.bandHigh
     let c := { s.clock with latestCount := n, countValid := true, windowTicks := 0, windowCycles := 0, windowFresh := true }
     (s.clock.state = .starting → good → exec (.checkWindowEnd cycles) s = .next { s with clock := { c with state := .reference } }) ∧
     (s.clock.state = .starting → ¬ good → exec (.checkWindowEnd cycles) s = .next { s with clock := c }) ∧
     (s.clock.state = .reference → good → exec (.checkWindowEnd cycles) s = .next { s with clock := c }) ∧
     (s.clock.state = .reference → ¬ good →
       ∃ t, exec (.checkWindowEnd cycles) s = .next t ∧
         t.clock = { c with state := .fallback, returnPending := false, goodWindows := 0, windowPredatesReturn := false } ∧
         t.alloc = { s.alloc with
           holdClock := true, opState := if s.alloc.opState = .running then .hold else s.alloc.opState } ∧
         (∀ i, t.record i = { s.record i with
           life := if s.alloc.opState = .running then (s.life i).withReason .hold else s.life i }) ∧
         t = { (s.raise 18) with
           clock := t.clock, alloc := t.alloc, pool := { s.pool with records := t.pool.records } })) ∧
  (∀ (cycles : Nat) (s : State), s.clock.state = .fallback →
     let n := min 65535 (s.clock.windowCycles + cycles)
     let good := s.params.bandLow ≤ n ∧ n ≤ s.params.bandHigh
     let c := { s.clock with latestCount := n, countValid := true, windowTicks := 0, windowCycles := 0, windowFresh := true }
     let ended := { c with returnPending := false, goodWindows := 0, windowPredatesReturn := false }
     (s.clock.returnPending = false → exec (.checkWindowEnd cycles) s = .next { s with clock := c }) ∧
     (s.clock.returnPending = true → s.clock.windowPredatesReturn = true →
       exec (.checkWindowEnd cycles) s = .next { s with clock := { c with windowPredatesReturn := false } }) ∧
     (s.clock.returnPending = true → s.clock.windowPredatesReturn = false →
       (¬ good → exec (.checkWindowEnd cycles) s = .next ({ s with clock := ended }.raise 18)) ∧
       (good → s.clock.goodWindows = 0 →
         exec (.checkWindowEnd cycles) s = .next { s with clock := { c with goodWindows := 1 } }) ∧
       (good → s.clock.goodWindows = 1 →
         exec (.checkWindowEnd cycles) s = .next ({ s with
           clock := { ended with state := .reference }
           alloc := { s.alloc with
             holdClock := false
             opState := if s.alloc.opState = OpState.hold ∧ s.alloc.holdPort = false then .running else s.alloc.opState
             passDue := s.alloc.passDue ||
               (s.alloc.opState == OpState.hold && !s.alloc.holdPort && !s.alloc.reclaiming) } }.raise 18))))

/-! ### The Bay Link -/

/-- POLL_SEND (R165, R166, R167): with no visit in progress the schedule goes on to the first bay that is PRESENT, or reached in a round
numbered 0, passing the others; that bay's POLL, made of the state as it stands, is sent, its answer slot becomes NONE and the reply window
is open (log 11). With a visit in progress nothing is sent. -/
def Obligations.PollSent : Prop :=
  ∀ s : State,
    (s.link.phase ≠ .none → exec .pollSend s = .next s) ∧
    (s.link.phase = .none → ∃ (n : Nat) (l : Link) (bays : Vector Bay 16), n < 128 ∧
      (∀ k < n, (s.bay (Link.advance^[k] s.link).position).presence = .absent ∧ (Link.advance^[k] s.link).round ≠ 0) ∧
      l = Link.advance^[n] s.link ∧ ((s.bay l.position).presence = .present ∨ l.round = 0) ∧
      (∀ b, bays.get b = if b = l.position then { s.bay b with answer := none } else s.bay b) ∧
      exec .pollSend s = .next { s with
        bays := bays, link := { l with phase := .reply, lastPoll := some (s.pollFrame l.position) } }) ∧
    ∀ l : Link, l.advance = { l with position := l.position + 1, round := if l.position = 15 then l.round + 1 else l.round }

/-- The bytes of a POLL (R164, R167, R185): start byte, kind 1 above the bay's address, mode, handle, record state code, limit, answer code
and handle, and the CRC of all after the start byte. R164, R168: the check value of the ASCII digits 1 to 9 is 29B1; a REPORT with request
NONE received from bay 3 is a good one for a visit of bay 3 and a foreign frame for a visit of bay 4; silence is an expiry, and a byte later
than one byte-time makes the frame bad. R185: the bytes of a REPORT of the polled bay, each in time, spell the request of its payload; a
REPORT of another bay and a POLL are foreign frames; one with other check bytes is a bad frame. On the line a byte is ten bits: a start bit,
eight data bits least significant first, and a stop bit; ten bits that are not so give no byte. -/
def Obligations.FramesOnTheLink : Prop :=
  (∀ (s : State) (b : BayIdx),
     let y := s.bay b
     let body := [byteOf (16 + b.val),
         if y.blockCause ≠ .none then 2 else if y.calState ≠ .idle then 1 else 0] ++
       be16 (match y.record with | some i => s.handle i | none => 65535) ++
       [match y.record with
         | some i => byteOf (s.life i).code
         | none => if y.lastSpent = none then 0 else 4] ++ be16 y.limit ++
       (match y.answer with | some a => byteOf a.code.code :: be16 a.handle | none => [0, 255, 255])
     s.pollFrame b = 0xC3 :: (body ++ be16 (crc16 body).toNat) ∧ (s.pollFrame b).length = 13) ∧
  (crc16 [0x31, 0x32, 0x33, 0x34, 0x35, 0x36, 0x37, 0x38, 0x39] = 0x29B1 ∧
     receive 3 [⟨0, 0xC3⟩, ⟨0, 0x23⟩, ⟨0, 0⟩, ⟨0, byteOf ((crc16 [0x23, 0]).toNat / 256)⟩, ⟨0, byteOf (crc16 [0x23, 0]).toNat⟩] =
       .reportNone ∧
     receive 4 [⟨0, 0xC3⟩, ⟨0, 0x23⟩, ⟨0, 0⟩, ⟨0, byteOf ((crc16 [0x23, 0]).toNat / 256)⟩, ⟨0, byteOf (crc16 [0x23, 0]).toNat⟩] =
       .foreignFrame ∧
     receive 3 [] = .replyWindowExpiry ∧
     receive 3 [⟨0, 0xC3⟩, ⟨41, 0x23⟩, ⟨0, 0⟩, ⟨0, byteOf ((crc16 [0x23, 0]).toNat / 256)⟩, ⟨0, byteOf (crc16 [0x23, 0]).toNat⟩] =
       .badFrame) ∧
  (∀ (b c : BayIdx) (payload : List Byte) (request : Instr),
     (payload = [0] ∧ request = .reportNone ∨
       (∃ cls rh rl fh fl lease mask value : Byte, payload = [1, cls, rh, rl, fh, fl, lease, mask, value] ∧
         request = .ask cls (rh ++ rl) (fh ++ fl) lease mask value) ∨
       (∃ hh hl rh rl fh fl : Byte, payload = [2, hh, hl, rh, rl, fh, fl] ∧ request = .change (hh ++ hl) (rh ++ rl) (fh ++ fl)) ∨
       (∃ hh hl : Byte, payload = [3, hh, hl] ∧ request = .linkRenew (hh ++ hl)) ∨
       (∃ hh hl : Byte, payload = [4, hh, hl] ∧ request = .release (hh ++ hl))) →
     ∀ (rx : List RxByte) (check : Half), (∀ r ∈ rx.tail, r.gap ≤ 40) →
       rx.map RxByte.byte = 0xC3 :: byteOf (32 + c.val) :: (payload ++ be16 check.toNat) →
       (check = crc16 (byteOf (32 + c.val) :: payload) → receive b rx = if c = b then request else .foreignFrame) ∧
       (check ≠ crc16 (byteOf (32 + c.val) :: payload) → receive b rx = .badFrame)) ∧
  (∀ (s : State) (b c : BayIdx) (rx : List RxByte), (∀ r ∈ rx.tail, r.gap ≤ 40) → rx.map RxByte.byte = s.pollFrame c →
     receive b rx = .foreignFrame) ∧
  (∀ b : Byte, lineBits b = [.start, .data (b.getLsbD 0), .data (b.getLsbD 1), .data (b.getLsbD 2), .data (b.getLsbD 3),
     .data (b.getLsbD 4), .data (b.getLsbD 5), .data (b.getLsbD 6), .data (b.getLsbD 7), .stop] ∧ byteOfLine (lineBits b) = some b) ∧
  (∀ (l : List LineBit) (b : Byte), byteOfLine l = some b → l = lineBits b) ∧
  ∀ bytes : List Byte, lineOf bytes = bytes.flatMap lineBits ∧ (lineOf bytes).length = 10 * bytes.length

/-- The end of a visit (R168, R169, R170): silence, a bad frame and a foreign frame are each a miss, counted up to 3 and ABSENT at 3; a good
REPORT makes the bay PRESENT with miss count 0, and with request NONE it changes nothing more; the schedule goes on to the next bay. With no
reply window open nothing that arrives is taken (R168, log 11). -/
def Obligations.VisitEnds : Prop :=
  (∀ s : State, s.link.phase ≠ .none →
     ∃ l : Link, l = { s.link with
         position := s.link.position + 1, round := if s.link.position = 15 then s.link.round + 1 else s.link.round, phase := .none } ∧
       (∀ c ∈ [Instr.replyWindowExpiry, .badFrame, .foreignFrame],
         exec c s = .next { s.setBay s.link.position { s.bay s.link.position with
           missCount := min 3 ((s.bay s.link.position).missCount + 1)
           presence := if 3 ≤ (s.bay s.link.position).missCount + 1 then .absent else (s.bay s.link.position).presence } with
           link := l }) ∧
       s.endVisit Bay.reported = { s.setBay s.link.position { s.bay s.link.position with missCount := 0, presence := .present } with
         link := l } ∧
       exec .reportNone s = .next (s.endVisit Bay.reported)) ∧
  (∀ (s : State) (cls lease mask value : Byte) (h requested floor : Half), s.link.phase = .none →
     ∀ c ∈ [Instr.replyWindowExpiry, .badFrame, .foreignFrame, .reportNone, .ask cls requested floor lease mask value,
       .change h requested floor, .linkRenew h, .release h], exec c s = .next s)

/-- ASK (R12, R13, R170, R171), with `v` the state once the presence is updated: a field out of range, or lease length 0, BAD_ARG; TRIP,
REFUSED; a live record, ALREADY with its handle; an empty free list, NO_RECORD with POOL_FULL raised; else a LINK record, ACCEPTED. -/
def Obligations.AskTaken : Prop :=
  ∀ (s : State) (cls lease mask value : Byte) (requested floor : Half), s.link.phase ≠ .none →
    let b := s.link.position
    let v := s.endVisit Bay.reported
    let good := requestInRange cls.toNat requested.toNat floor.toNat mask.toNat value.toNat ∧ lease.toNat ≠ 0
    let taken := exec (.ask cls requested floor lease mask value) s
    (¬ good → taken = .next (answered v b .badArg 65535)) ∧
    (good → s.alloc.opState = .trip → taken = .next (answered v b .refused 65535)) ∧
    (good → s.alloc.opState ≠ .trip → ∀ i, (s.bay b).record = some i →
      taken = .next (answered v b .already (s.handle i))) ∧
    (good → s.alloc.opState ≠ .trip → (s.bay b).record = none → s.pool.freeList = [] →
      taken = .next (answered (v.raise 16) b .noRecord 65535)) ∧
    (good → s.alloc.opState ≠ .trip → (s.bay b).record = none → ∀ i rest, s.pool.freeList = i :: rest →
      ∃ t, Creates v t i rest b (createdTerms b .link cls.toNat requested.toNat floor.toNat lease.toNat mask.toNat value.toNat) ∧
        taken = .next (answered t b .accepted (s.handle i)))

/-- R5, R171: a CHANGE, RENEW or RELEASE whose handle names no record, or another life, is answered BAD_HANDLE; a FREE record CLOSED; another
bay's record BAD_HANDLE; a SPENT record of the bay CLOSED; always with the named handle. -/
def Obligations.LinkHandleRefused : Prop :=
  ∀ (s : State) (h requested floor : Half), s.link.phase ≠ .none → 1 ≤ requested.toNat → requested.toNat ≤ 630 → floor.toNat ≤ 630 →
    ∀ c ∈ [Instr.change h requested floor, .linkRenew h, .release h],
      let b := s.link.position
      let v := s.endVisit Bay.reported
      ((∀ i, s.handle i ≠ h.toNat) → exec c s = .next (answered v b .badHandle h.toNat)) ∧
      ∀ i, s.handle i = h.toNat →
        (s.life i = .free → exec c s = .next (answered v b .closed h.toNat)) ∧
        (∀ u, (s.life i).terms? = some u → u.bay ≠ b → exec c s = .next (answered v b .badHandle h.toNat)) ∧
        (∀ u x f, s.life i = .spent u x f → u.bay = b → exec c s = .next (answered v b .closed h.toNat))

/-- CHANGE (R24, R25, R172) of a record of the reporting bay: a value out of range, BAD_ARG before the handle is looked at; RETIRING,
EXPIRED; a floor above the requested value, or in GRANTED above the staged grant left, BAD_ARG; else both fields are taken, a staged grant
above the requested value falls to it with the load, which is a pass trigger, and ends reclaiming, with RECLAIM raised, when every load then
fits (R30, R39, R139, R140), a window on the record is overtaken (R179), and the answer is ACCEPTED. -/
def Obligations.ChangeTaken : Prop :=
  ∀ (s : State) (h requested floor : Half), s.link.phase ≠ .none →
    let b := s.link.position
    let v := s.endVisit Bay.reported
    let taken := exec (.change h requested floor) s
    (requested.toNat = 0 ∨ 630 < requested.toNat ∨ 630 < floor.toNat → taken = .next (answered v b .badArg h.toNat)) ∧
    (1 ≤ requested.toNat → requested.toNat ≤ 630 → floor.toNat ≤ 630 → ∀ i, s.handle i = h.toNat →
      ∀ u : Terms, u.bay = b →
        (∀ a c n, s.life i = .retiring u a c n → taken = .next (answered v b .expired h.toNat)) ∧
        (∀ r, s.life i = .waiting u r → requested.toNat < floor.toNat → taken = .next (answered v b .badArg h.toNat)) ∧
        (∀ g, s.life i = .granted u g → min g.staged requested.toNat < floor.toNat →
          taken = .next (answered v b .badArg h.toNat)) ∧
        ((u.value &&& ~~~u.mask) = 0 → (u.leaseLength = 0 → u.origin = .port) →
          let w : Terms := { u with requested := requested.toNat, floor := floor.toNat }
          (∀ r, s.life i = .waiting u r → floor.toNat ≤ requested.toNat →
            ∃ t, Overtakes (v.setLife i (.waiting w r)) t i ∧ taken = .next (answered t b .accepted h.toNat)) ∧
          (∀ g, s.life i = .granted u g → floor.toNat ≤ min g.staged requested.toNat →
            ∃ t, Regrants v t i u g w { g with staged := min g.staged requested.toNat } ∧
              taken = .next (answered t b .accepted h.toNat))))

/-- RENEW from a bay (R64): WAITING and a record without a lease change nothing, a GRANTED record with one has it loaded again, all
ACCEPTED; RETIRING is EXPIRED. RELEASE (R14, R15, R16): WAITING is withdrawn, GRANTED enters RETIRING with RELEASED, RETIRING is left as it
is; all are ACCEPTED. -/
def Obligations.LinkRenewAndReleaseTaken : Prop :=
  (∀ (s : State) (h : Half) (i : RecIdx) (u : Terms), s.link.phase ≠ .none → s.handle i = h.toNat → u.bay = s.link.position →
     let b := s.link.position
     let v := s.endVisit Bay.reported
     (∀ r, s.life i = .waiting u r → exec (.linkRenew h) s = .next (answered v b .accepted h.toNat)) ∧
     (∀ g, s.life i = .granted u g → u.leaseLength = 0 → exec (.linkRenew h) s = .next (answered v b .accepted h.toNat)) ∧
     (∀ g, s.life i = .granted u g → u.leaseLength ≠ 0 →
       exec (.linkRenew h) s = .next (answered (v.setLife i (.granted u { g with leaseLeft := some u.leaseLength })) b
         .accepted h.toNat)) ∧
     (∀ a c n, s.life i = .retiring u a c n → exec (.linkRenew h) s = .next (answered v b .expired h.toNat))) ∧
  (∀ (s : State) (h : Half) (i : RecIdx) (u : Terms), s.link.phase ≠ .none → s.handle i = h.toNat → u.bay = s.link.position →
     let b := s.link.position
     let v := s.endVisit Bay.reported
     (∀ r, s.life i = .waiting u r →
       ∃ t, EntersSpent v t i u .withdrawn false ∧ exec (.release h) s = .next (answered t b .accepted h.toNat)) ∧
     (∀ g, s.life i = .granted u g →
       ∃ t, EntersRetiring v t i u g .released ∧ exec (.release h) s = .next (answered t b .accepted h.toNat)) ∧
     (∀ a c n, s.life i = .retiring u a c n → exec (.release h) s = .next (answered v b .accepted h.toNat)))

/-! ### The admission pass -/

/-- ADMISSION_PASS (R39, R40, log 4): with no trigger taken nothing happens; outside RUNNING, or while reclaiming, the triggers taken are
dropped; else one pass is run. It walks the queue in order (R41, R42): each record is passed over with the first reason that holds, or
admitted with the smaller of its requested value and its room (R43), or stops the walk, when it and every record behind it wait with BUDGET
and a squeeze follows, of the candidates in order up to the first after which the record fits (R45, R46); a walk that did not stop is
followed by the restore of the GRANTED records, class descending and oldest first (R49, R50). What this leaves: each WAITING record stays
WAITING or is GRANTED with active grant 0 and a staged grant between its floor and its requested value, each GRANTED record keeps its active
grant and its other fields while its staged grant may move within those bounds, and no other record is touched. The records admitted leave
the queue and join the tail of the grant order list in queue order (R36, R38, R43). -/
def Obligations.AdmissionPassOutcome : Prop :=
  ∀ s : State,
    (s.alloc.passDue = false → exec .admissionPass s = .next s) ∧
    (s.alloc.passDue = true → s.alloc.opState ≠ .running ∨ s.alloc.reclaiming = true →
      exec .admissionPass s = .next { s with alloc := { s.alloc with passDue := false } }) ∧
    (s.alloc.passDue = true → s.alloc.opState = .running → s.alloc.reclaiming = false → s.ListsExact → s.GrantsWithinTerms →
      ∃ (m t : State) (stop : Bool) (l : List RecIdx), exec .admissionPass s = .next t ∧
        Walks { s with alloc := { s.alloc with passDue := false } } s.alloc.waitQueue m stop ∧ (stop = true → t = m) ∧
        (stop = false → ∃ order, (∀ i, i ∈ order ↔ i ∈ m.alloc.grantOrder) ∧ order.Pairwise m.RaiseFirst ∧ Restores m order t) ∧
        (∀ i, match s.life i with
          | .waiting u _ => (∃ r, t.life i = .waiting u r ∧ i ∉ l) ∨
              ∃ g, t.life i = .granted u g ∧ i ∈ l ∧ g.active = 0 ∧ u.floor ≤ g.staged ∧ g.staged ≤ u.requested
          | .granted u g => ∃ v, t.life i = .granted u { g with staged := v } ∧ u.floor ≤ v ∧ v ≤ u.requested
          | x => t.life i = x) ∧
        l.Sublist s.alloc.waitQueue ∧ t.alloc.grantOrder = s.alloc.grantOrder ++ l ∧
        t.alloc.waitQueue = s.alloc.waitQueue.filter (fun i => !l.contains i) ∧
        t.pool.freeList = s.pool.freeList ∧ t.alloc.opState = .running ∧ t.alloc.reclaiming = false ∧
        t.alloc.effCeiling = s.alloc.effCeiling ∧ t.timer = s.timer ∧ t.sampler = s.sampler ∧ t.thermal = s.thermal ∧
        t.clock = s.clock ∧ t.link = s.link ∧ t.params = s.params ∧ t.reply = s.reply ∧ t.closeWindowLeft = s.closeWindowLeft ∧
        ∀ b, (t.bay b).record = (s.bay b).record ∧ (t.bay b).blockCause = (s.bay b).blockCause ∧
          (t.bay b).limit = (s.bay b).limit ∧ (t.bay b).latestSample = (s.bay b).latestSample)

/-- R41: a record alone in the queue is passed over by the first condition that holds of its bay: a block cause, a calibration, a SHUT gate,
a close count that has reached the close limit; it stays in its place with that wait reason. R34, R42, R43, R66, R73: a record alone in the
queue whose bay holds nothing against it is measured against its room, the least headroom under the effective ceiling over its on positions:
with room for the larger of its floor and 1 it is GRANTED the smaller of its requested value and its room, behind the records already
GRANTED; with less, and no squeeze to make (R45), it waits with BUDGET and nothing else changes. The GRANTED records beside it stand at their
requested values, so that the restore pass raises none. That the closing sets the in-effect duty to 0 is read from R73 (log 24, DEDUCED). -/
def Obligations.LoneRecordOutcome : Prop :=
  (∀ (s : State) (i : RecIdx) (u : Terms) (r r' : WaitReason),
     s.alloc.passDue = true → s.alloc.opState = .running → s.alloc.reclaiming = false → s.alloc.waitQueue = [i] →
     (∀ j ∈ s.alloc.grantOrder, ∃ v g, s.life j = .granted v g ∧ g.staged = v.requested) → s.life i = .waiting u r →
     ((s.bay u.bay).blockCause ≠ .none ∧ r' = .blocked ∨
       (s.bay u.bay).blockCause = .none ∧ (s.bay u.bay).calState ≠ .idle ∧ r' = .calibrating ∨
       (s.bay u.bay).blockCause = .none ∧ (s.bay u.bay).calState = .idle ∧ (s.bay u.bay).gate = .shut ∧ r' = .gated ∨
       (s.bay u.bay).blockCause = .none ∧ (s.bay u.bay).calState = .idle ∧ (s.bay u.bay).gate = .opened ∧
         s.params.closeLimit ≤ (s.bay u.bay).closeCount ∧ r' = .closeLimit) →
     exec .admissionPass s = .next { s.setLife i (.waiting u r') with alloc := { s.alloc with passDue := false } }) ∧
  (∀ (s : State) (i : RecIdx) (u : Terms) (r : WaitReason) (room : Nat),
     s.alloc.passDue = true → s.alloc.opState = .running → s.alloc.reclaiming = false → s.alloc.waitQueue = [i] →
     (∀ j ∈ s.alloc.grantOrder, ∃ v g, s.life j = .granted v g ∧ g.staged = v.requested) →
     s.life i = .waiting u r → (s.bay u.bay).blockCause = .none → (s.bay u.bay).calState = .idle →
     (s.bay u.bay).gate = .opened → (s.bay u.bay).closeCount < s.params.closeLimit →
     (∀ p, u.onAt p = true → room ≤ s.alloc.effCeiling - s.load p) → (∃ p, u.onAt p = true ∧ room = s.alloc.effCeiling - s.load p) →
     (room < max u.floor 1 →
       (s.params.squeezeClasses.getLsbD u.cls.val = false ∨
         ∀ j ∈ s.alloc.grantOrder, ∀ v g, s.life j = .granted v g → u.cls ≤ v.cls ∨ g.staged ≤ v.floor) →
       exec .admissionPass s = .next { s.setLife i (.waiting u .budget) with alloc := { s.alloc with passDue := false } }) ∧
     (max u.floor 1 ≤ room → ∃ t, exec .admissionPass s = .next t ∧
       t.life i = .granted u {
         active := 0, staged := min u.requested room
         leaseLeft := if u.leaseLength = 0 then none else some u.leaseLength
         taperState := match u.taper with
           | [] => none
           | st :: _ => some { step := 0, left := st.periods, unopened := true }
         strikes := 0, strikeWindowLeft := s.params.strikeWindow } ∧
       (∀ j, j ≠ i → t.life j = s.life j) ∧
       (∀ p, t.load p = if u.onAt p then s.load p + min u.requested room else s.load p) ∧
       t.alloc.waitQueue = [] ∧ t.alloc.grantOrder = s.alloc.grantOrder ++ [i] ∧
       t.bay u.bay = { s.bay u.bay with
         enable := .closed, closeCount := (s.bay u.bay).closeCount + 1, strayGrace := false, inEffectDuty := 0
         events := { (s.bay u.bay).events with admitted := true } } ∧
       (∀ b, b ≠ u.bay → t.bay b = s.bay b) ∧ t.attention.flags.get (bayFlag u.bay) = .raisedUnseen ∧
       t.pool.edit = s.pool.edit.map (fun w => { w with stale := w.stale || decide (w.handle % 64 = i.val) })))

/-- The projected load of a position (R34): the staged grant of every GRANTED record on in it, or its floor where it is taken as lowered, and
the active grant of every RETIRING one; room and projected room are the least headroom under the effective ceiling over the on positions,
against the loads and against the projected loads. R45, R46, R47: a budget-blocked record alone in the queue, of a squeeze class, and one
GRANTED record of lower class above its floor and on in a shared position: when the projected room with that record at its floor is enough
and without it is not, its staged grant becomes its floor; the waiting record keeps its place with BUDGET either way. R49, R50: with the
queue empty, a GRANTED record alone on the grant order list is raised by the smaller of what it lacks of its requested value and its room;
its active grant stays; with nothing to raise only the trigger is spent. -/
def Obligations.SqueezeAndRestore : Prop :=
  (∀ (s : State) (low : List RecIdx) (p : Position), s.projectedLoad low p = ((List.finRange 48).map fun i =>
     match s.life i with
     | .granted u g => if u.onAt p then (if i ∈ low then u.floor else g.staged) else 0
     | .retiring u a _ _ => if u.onAt p then a else 0
     | _ => 0).sum) ∧
  (∀ (s : State) (i j : RecIdx) (u v : Terms) (r : WaitReason) (g : Grant) (room before after : Nat),
     s.alloc.passDue = true → s.alloc.opState = .running → s.alloc.reclaiming = false → s.alloc.waitQueue = [i] →
     s.alloc.grantOrder = [j] → s.life i = .waiting u r → s.life j = .granted v g → (s.bay u.bay).blockCause = .none →
     (s.bay u.bay).calState = .idle → (s.bay u.bay).gate = .opened → (s.bay u.bay).closeCount < s.params.closeLimit →
     IsRoom s.alloc.effCeiling s.load u room → room < max u.floor 1 →
     IsRoom s.alloc.effCeiling (s.projectedLoad []) u before → IsRoom s.alloc.effCeiling (s.projectedLoad [j]) u after →
     s.params.squeezeClasses.getLsbD u.cls.val = true → v.cls < u.cls → v.floor < g.staged →
     (∃ p, u.onAt p = true ∧ v.onAt p = true) →
     ∃ t, exec .admissionPass s = .next t ∧ t.life i = .waiting u .budget ∧ t.alloc.waitQueue = [i] ∧ t.alloc.grantOrder = [j] ∧
       t.life j = .granted v { g with
         staged := if before < max u.floor 1 ∧ max u.floor 1 ≤ after then v.floor else g.staged } ∧
       (∀ k, k ≠ i → k ≠ j → t.life k = s.life k) ∧ t.bays = s.bays) ∧
  (∀ (s : State) (j : RecIdx) (v : Terms) (g : Grant) (room : Nat),
     s.alloc.passDue = true → s.alloc.opState = .running → s.alloc.reclaiming = false → s.alloc.waitQueue = [] →
     s.alloc.grantOrder = [j] → s.life j = .granted v g → IsRoom s.alloc.effCeiling s.load v room →
     let up := min (v.requested - g.staged) room
     (up = 0 → exec .admissionPass s = .next { s with alloc := { s.alloc with passDue := false } }) ∧
     (0 < up → ∃ t, exec .admissionPass s = .next t ∧ t.life j = .granted v { g with staged := g.staged + up } ∧
       (∀ k, k ≠ j → t.life k = s.life k) ∧
       (∀ p, t.load p = if v.onAt p then s.load p + max g.active (g.staged + up) - max g.active g.staged else s.load p) ∧
       t.bays = s.bays ∧ t.alloc.grantOrder = [j] ∧
       t.pool.edit = s.pool.edit.map (fun w => { w with stale := w.stale || decide (w.handle % 64 = j.val) })))

/-! ### Time -/

/-- MILLISECOND_TICK and PERIOD_BOUNDARY keep the timer (R55, R56): while it runs the count rises by one below the period length; the
millisecond that reaches the period length sets it to 0 and advances the position, 63 followed by 0; while it is stopped neither moves
anything. What a boundary leaves for later steps is the operand's (log 3), and it notes which GRANTED or RETIRING record it finds on each
bay (R10, R58). -/
def Obligations.TimerCounts : Prop :=
  ∀ (s : State) (later : List BoundaryPart) (found : Vector (Option Nat) 16), s.timer.outstanding = [] → Finds s found →
    (s.timer.running = true → s.timer.ms + 1 < s.params.periodLength →
      exec .millisecondTick s = .next { s with timer := { s.timer with ms := s.timer.ms + 1 } } ∧
      exec (.periodBoundary later) s = .next s) ∧
    (s.timer.running = true → s.timer.ms + 1 = s.params.periodLength →
      exec .millisecondTick s = .next s ∧
      exec (.periodBoundary boundaryParts) s = .next { s with timer := {
        running := true, ms := 0, position := s.timer.position + 1, outstanding := boundaryParts, found := found } } ∧
      ∃ t, exec (.periodBoundary later) s = .next t ∧ t.timer.running = true ∧ t.timer.ms = 0 ∧
        t.timer.position = s.timer.position + 1 ∧ t.timer.outstanding = boundaryParts.filter (fun p => later.contains p) ∧
        t.timer.found = found) ∧
    (s.timer.running = false → exec .millisecondTick s = .next s ∧ exec (.periodBoundary later) s = .next s)

/-- Every record at a whole boundary (R58, R59, R61, R67, R68, R70, R106, R114): a GRANTED record whose lease count reaches 0 enters RETIRING
with LEASE_END; else one whose taper is exhausted with a last current of 0 enters it with TAPER_END; else it stays GRANTED with its lease
count one lower, its taper state by the row of R67 and its strikes by the strike window; its active grant is its staged grant in each
case. A RETIRING record's ramp is one lower, or it is SPENT, forced; the terms keep all but the charge and its residue; the other records
stand. Every bay at it (R74, R76, R77, R78, R82, R84, R85, R87): the limit is the one its record gives at the position opened, the staged
duty is that limit's, a fall of the limit begins decrease grace with the old one and nothing else leaves one, stray grace stays only where a
ramp was cut short here, which opens the enable and blocks the bay; the in-effect duty waits for the signal period. -/
def Obligations.BoundaryTakesRecords : Prop :=
  ∀ s : State, s.timer.running = true → s.timer.ms + 1 = s.params.periodLength → s.timer.outstanding = [] → s.BaysExact →
    ∃ t, exec (.periodBoundary []) s = .next t ∧ t.timer.outstanding = [] ∧
      (∀ i, match s.life i with
        | .granted u g => ∃ u', u' = { u with charge := u'.charge, residue := u'.residue } ∧
            (LeaseRunsOut g ∧ t.life i = .retiring u' g.staged .leaseEnd s.params.retireTimeout ∨
              ¬ LeaseRunsOut g ∧ TaperRunsOut u.taper g ∧ t.life i = .retiring u' g.staged .taperEnd s.params.retireTimeout ∨
              ¬ LeaseRunsOut g ∧ ¬ TaperRunsOut u.taper g ∧ ∃ g', t.life i = .granted u' g' ∧ g'.active = g.staged ∧
                g'.staged = g.staged ∧ g'.leaseLeft = g.leaseLeft.map (· - 1) ∧
                (g.taperState = none → g'.taperState = none) ∧
                (∀ ts, g.taperState = some ts → ∃ ts', g'.taperState = some ts' ∧ TaperCounts u.taper ts ts') ∧
                g'.strikes = (if g.strikeWindowLeft ≤ 1 then 0 else g.strikes) ∧
                g'.strikeWindowLeft = (if g.strikeWindowLeft ≤ 1 then s.params.strikeWindow else g.strikeWindowLeft - 1))
        | .retiring u a c n => ∃ u', u' = { u with charge := u'.charge, residue := u'.residue } ∧
            (1 < n ∧ t.life i = .retiring u' a c (n - 1) ∨ n ≤ 1 ∧ t.life i = .spent u' c true)
        | x => t.life i = x) ∧
      (s.OutputsExact → s.DutiesExact → ∀ b : BayIdx,
        let y := s.bay b
        let z := t.bay b
        let cut := ∃ i u a c n, y.record = some i ∧ s.life i = .retiring u a c n ∧ n ≤ 1
        (∀ i u g, z.record = some i → t.life i = .granted u g →
          (u.onAt (s.timer.position + 1) = false → z.limit = 0) ∧
          (u.onAt (s.timer.position + 1) = true → g.taperState = none → z.limit = g.active) ∧
          ∀ ts st, u.onAt (s.timer.position + 1) = true → g.taperState = some ts → u.taper[ts.step]? = some st →
            z.limit = min g.active st.current) ∧
        ((∀ i u g, z.record = some i → t.life i ≠ .granted u g) → z.limit = 0) ∧
        z.stagedDuty = z.limit * 1000 / 630 ∧ z.inEffectDuty = y.inEffectDuty ∧
        z.decreaseGrace = (if z.limit < y.limit then some y.limit else none) ∧
        (z.strayGrace = true ↔ cut) ∧
        (cut → z.record = none ∧ z.enable = .opened ∧ z.blockCause = .forcedOpen) ∧
        (¬ cut → z.record = y.record ∧ z.enable = y.enable ∧ z.blockCause = y.blockCause) ∧
        z.closeCount = (if s.closeWindowLeft ≤ 1 then 0 else y.closeCount))

/-- The limit a boundary gives (R71, R78): a GRANTED record on at the position opened gives the smaller of its active grant and its step
current, or its active grant without a taper list; every other entry gives 0. SIGNAL_PERIOD_START (R81, R82, R152): every in-effect duty
takes its staged duty, and on the internal oscillator the remainder gains 768 and loses 1000 when it reaches it (log 14), and the
check window that ended last is no longer the event before (log 13); in a signal period
the line of a bay is high for its first in-effect-duty microseconds while its enable is CLOSED and low otherwise. -/
def Obligations.BoundaryLimitsAndSignalPeriod : Prop :=
  (∀ (u : Terms) (g : Grant) (p : Position) (a n : Nat) (c : EndCause) (f : Bool) (r : WaitReason),
     (u.onAt p = false → (Life.granted u g).limitAt p = 0) ∧
     (u.onAt p = true → g.taperState = none → (Life.granted u g).limitAt p = g.active) ∧
     (∀ ts st, u.onAt p = true → g.taperState = some ts → u.taper[ts.step]? = some st →
       (Life.granted u g).limitAt p = min g.active st.current) ∧
     (Life.retiring u a c n).limitAt p = 0 ∧ (Life.waiting u r).limitAt p = 0 ∧ (Life.spent u c f).limitAt p = 0 ∧
     Life.free.limitAt p = 0 ∧ (u.onAt p = true ↔ BitVec.ofNat 6 p.val &&& u.mask = u.value)) ∧
  (∀ s : State,
     (∃ bays : Vector Bay 16, (∀ b, bays.get b = { s.bay b with inEffectDuty := (s.bay b).stagedDuty }) ∧
       exec .signalPeriodStart s = .next { s with
         bays := bays
         clock := { s.clock with
           windowFresh := false
           msRemainder := if s.clock.state = .reference then s.clock.msRemainder
             else if 1000 ≤ s.clock.msRemainder + 768 then s.clock.msRemainder + 768 - 1000 else s.clock.msRemainder + 768 } }) ∧
     ∀ (y : Bay) (us : Fin 1000), y.limitLine us = true ↔ y.enable = .closed ∧ us.val < y.inEffectDuty)

/-- LEASE_END and TAPER_END, where the bay's part of a boundary is outstanding (R15, R58, R59, R61, R68, R71, R84): the record is activated,
so its load is its staged grant, and enters RETIRING with that grant; the bay's graces end, its limit is 0, and a limit that stood above 0
under a CLOSED enable begins a new grace. TAPER_STEP_ADVANCE, where the bay's part of a boundary is outstanding (R58, R59, R61, R67, R78):
the record is activated, its lease counted and the next step opened with its duration, and the bay's limit is capped by that step when the
record is on. RAMP_TIMEOUT, where the bay's part of a boundary is outstanding (R19, R21, R70, R74): the record is SPENT, forced, with the
cause it had; the enable opens and the bay is blocked with FORCED_OPEN, which adds BLOCKED and raises the bay's flag. A record that the
boundary did not find GRANTED or RETIRING, one admitted since, is neither activated nor counted when the bay's parts are taken (R10, R58,
R62). -/
def Obligations.RecordEventsTaken : Prop :=
  (∀ (s : State) (i : RecIdx) (u : Terms) (g : Grant), s.life i = .granted u g → (s.bay u.bay).record = some i →
     BoundaryPart.bay u.bay ∈ s.timer.outstanding → s.timer.found.get u.bay = some (s.handle i) →
     ∀ (c : Instr) (cause : EndCause),
       (c = .leaseEnd i ∧ cause = .leaseEnd ∧ (∃ n, g.leaseLeft = some n ∧ n ≤ 1) ∨
         c = .taperEnd i ∧ cause = .taperEnd ∧ (∀ n, g.leaseLeft = some n → 1 < n) ∧
           ∃ ts st, g.taperState = some ts ∧ ts.unopened = false ∧ ts.left = 1 ∧ u.taper[ts.step]? = some st ∧ st.current = 0 ∧
             u.taper[ts.step + 1]? = none) →
       ∃ t, exec c s = .next t ∧ t.life i = .retiring u g.staged cause s.params.retireTimeout ∧ (∀ j, j ≠ i → t.life j = s.life j) ∧
         (∀ p, t.load p = if u.onAt p then s.load p + g.staged - max g.active g.staged else s.load p) ∧
         t.alloc.grantOrder = s.alloc.grantOrder.filter (· ≠ i) ∧ (t.bay u.bay).limit = 0 ∧
         (t.bay u.bay).enable = (s.bay u.bay).enable ∧ (t.bay u.bay).strayGrace = false ∧
         (t.bay u.bay).decreaseGrace =
           (if 0 < (s.bay u.bay).limit ∧ (s.bay u.bay).enable = .closed then some (s.bay u.bay).limit else none) ∧
         (∀ b, b ≠ u.bay → t.bay b = s.bay b) ∧
         t.pool.edit = s.pool.edit.map (fun w => { w with stale := w.stale || decide (w.handle % 64 = i.val) }) ∧
         t.timer = { s.timer with outstanding := s.timer.outstanding.filter (· ≠ .bay u.bay) } ∧ t.sampler = s.sampler ∧
         t.params = s.params ∧ t.clock = s.clock ∧ t.link = s.link ∧ t.thermal = s.thermal ∧
         t.alloc.waitQueue = s.alloc.waitQueue.filter (· ≠ i)) ∧
  (∀ (s : State) (i : RecIdx) (u : Terms) (g : Grant) (ts : TaperState) (st : TaperStep),
     s.life i = .granted u g → (s.bay u.bay).record = some i → BoundaryPart.bay u.bay ∈ s.timer.outstanding →
     s.timer.found.get u.bay = some (s.handle i) → (∀ n, g.leaseLeft = some n → 1 < n) → g.taperState = some ts →
     ts.unopened = false → ts.left = 1 →
     u.taper[ts.step + 1]? = some st →
     ∃ t, exec (.taperStepAdvance i) s = .next t ∧
       t.life i = .granted u { g with
         active := g.staged, leaseLeft := g.leaseLeft.map (· - 1)
         taperState := some { step := ts.step + 1, left := st.periods, unopened := false } } ∧
       (∀ j, j ≠ i → t.life j = s.life j) ∧
       (∀ p, t.load p = if u.onAt p then s.load p + g.staged - max g.active g.staged else s.load p) ∧
       (t.bay u.bay).limit = (if u.onAt s.timer.position then min g.staged st.current else 0) ∧
       (∀ b, b ≠ u.bay → t.bay b = s.bay b) ∧ t.pool.edit = s.pool.edit ∧
       t.timer = { s.timer with outstanding := s.timer.outstanding.filter (· ≠ .bay u.bay) } ∧
       t.alloc.grantOrder = s.alloc.grantOrder ∧ t.alloc.waitQueue = s.alloc.waitQueue) ∧
  (∀ (s : State) (i : RecIdx) (u : Terms) (a n : Nat) (c : EndCause), s.life i = .retiring u a c n → n ≤ 1 →
     (s.bay u.bay).record = some i → (s.bay u.bay).enable = .closed → BoundaryPart.bay u.bay ∈ s.timer.outstanding →
     s.timer.found.get u.bay = some (s.handle i) →
     ∃ t, EntersSpent { s.setBay u.bay { s.bay u.bay with decreaseGrace := none, strayGrace := false } with
         timer := { s.timer with outstanding := s.timer.outstanding.filter (· ≠ .bay u.bay) } } t i u c true ∧
       exec (.rampTimeout i) s = .next ((t.setBay u.bay { t.bay u.bay with
         blockCause := .forcedOpen, events := { (t.bay u.bay).events with blocked := true } }).raise (bayFlag u.bay))) ∧
  (∀ (s : State) (i : RecIdx) (u : Terms) (g : Grant), s.life i = .granted u g → (s.bay u.bay).record = some i →
     (∀ p ∈ s.timer.outstanding, p = .bay u.bay ∨ p = .strikes u.bay) → s.timer.found.get u.bay ≠ some (s.handle i) →
     s.timer.running = true → s.timer.ms + 1 < s.params.periodLength →
     ∃ t, exec .millisecondTick s = .next t ∧ t.pool = s.pool ∧ t.alloc = s.alloc ∧
       t.timer = { s.timer with ms := s.timer.ms + 1, outstanding := [] })

/-- STRIKE_WINDOW_END, CLOSE_WINDOW_END and SETTLE_END, where their part of a boundary is outstanding (R87, R106, R119): the strikes return
to 0 and the window is loaded again; every close count returns to 0, the counter is loaded again and the end is a trigger; the bay samples
and its first CALIBRATION request is raised. A record's events at a boundary change nothing when its part is not outstanding, or when the
boundary did not find that life of the record (R10, log 1, 3). -/
def Obligations.WindowsEnd : Prop :=
  (∀ s : State,
     (∀ i u g, s.life i = .granted u g → g.strikeWindowLeft ≤ 1 → (s.bay u.bay).record = some i →
       BoundaryPart.strikes u.bay ∈ s.timer.outstanding → s.timer.found.get u.bay = some (s.handle i) →
       exec (.strikeWindowEnd i) s = .next { s.setLife i (.granted u { g with
           strikes := 0, strikeWindowLeft := s.params.strikeWindow }) with
         timer := { s.timer with outstanding := s.timer.outstanding.filter (· ≠ .strikes u.bay) } }) ∧
     (s.closeWindowLeft ≤ 1 → BoundaryPart.closeWindow ∈ s.timer.outstanding →
       ∃ bays : Vector Bay 16, (∀ b, bays.get b = { s.bay b with closeCount := 0 }) ∧
         exec .closeWindowEnd s = .next { s with
           bays := bays, closeWindowLeft := s.params.closeWindow
           alloc := { s.alloc with passDue := s.alloc.passDue || (s.alloc.opState == OpState.running && !s.alloc.reclaiming) }
           timer := { s.timer with outstanding := s.timer.outstanding.filter (· ≠ .closeWindow) } }) ∧
     (∀ b, (s.bay b).calState = .settling → (s.bay b).settleLeft ≤ 1 → BoundaryPart.settle b ∈ s.timer.outstanding →
       ∃ requests : List Channel, (∀ d, d ∈ requests ↔ d = bayChannel b ∨ d ∈ s.sampler.calRequests) ∧ requests.Pairwise (· < ·) ∧
         exec (.settleEnd b) s = .next { s.setBay b { s.bay b with calState := .sampling, settleLeft := 0 } with
           sampler := { s.sampler with calRequests := requests }
           timer := { s.timer with outstanding := s.timer.outstanding.filter (· ≠ .settle b) } })) ∧
  (∀ (s : State) (i : RecIdx) (b : BayIdx),
     (∀ u, (s.life i).terms? = some u → BoundaryPart.bay u.bay ∉ s.timer.outstanding ∨
       s.timer.found.get u.bay ≠ some (s.handle i)) →
     (∀ u, (s.life i).terms? = some u → BoundaryPart.strikes u.bay ∉ s.timer.outstanding ∨
       s.timer.found.get u.bay ≠ some (s.handle i)) →
     BoundaryPart.closeWindow ∉ s.timer.outstanding → BoundaryPart.settle b ∉ s.timer.outstanding →
     ∀ c ∈ [Instr.leaseEnd i, .taperStepAdvance i, .taperEnd i, .rampTimeout i, .strikeWindowEnd i, .closeWindowEnd, .settleEnd b],
       exec c s = .next s)

/-- The counts of a boundary that end nothing, and the charge claim (R87, R106, R114, R119), each taken alone: a strike window, the close
window and a settle interval fall by one; a charge claim gives the sum owner's record, GRANTED or RETIRING, floor((mean × period length +
residue) / 1000), saturating, and the remainder as residue, and the bay's period sum and count return to 0; without a sum owner, with a count of
0, and for a sum owner that is SPENT or reclaimed or no record's handle, the record stands and the sum and count return to 0 all the same. -/
def Obligations.BoundaryCounts : Prop :=
  ∀ (s : State) (found : Vector (Option Nat) 16), s.timer.running = true → s.timer.ms + 1 = s.params.periodLength →
    s.timer.outstanding = [] → Finds s found →
    let only := fun p : BoundaryPart => Instr.periodBoundary (boundaryParts.filter (· ≠ p))
    let opened := fun p : BoundaryPart => { s.timer with
      ms := 0, position := s.timer.position + 1, outstanding := boundaryParts.filter (· ≠ p), found := found }
    (∀ b i u g, (s.bay b).record = some i → s.life i = .granted u g → 1 < g.strikeWindowLeft →
      exec (only (.strikes b)) s = .next { s.setLife i (.granted u { g with strikeWindowLeft := g.strikeWindowLeft - 1 }) with
        timer := opened (.strikes b) }) ∧
    (1 < s.closeWindowLeft →
      exec (only .closeWindow) s = .next { s with closeWindowLeft := s.closeWindowLeft - 1, timer := opened .closeWindow }) ∧
    (∀ b, (s.bay b).calState = .settling → 1 < (s.bay b).settleLeft →
      exec (only (.settle b)) s = .next { s.setBay b { s.bay b with settleLeft := (s.bay b).settleLeft - 1 } with
        timer := opened (.settle b) }) ∧
    (∀ b i u g, (s.bay b).sumOwner = some (s.handle i) → 0 < (s.bay b).periodCount → s.life i = .granted u g →
      let gain := (s.bay b).periodSum / (s.bay b).periodCount * s.params.periodLength + u.residue
      exec (only (.charge b)) s = .next { (s.setLife i (.granted { u with
            charge := min 4294967295 (u.charge + gain / 1000), residue := gain % 1000 } g)).setBay b { s.bay b with
          periodSum := 0, periodCount := 0 } with timer := opened (.charge b) }) ∧
    (∀ b i u a c n, (s.bay b).sumOwner = some (s.handle i) → 0 < (s.bay b).periodCount → s.life i = .retiring u a c n →
      let gain := (s.bay b).periodSum / (s.bay b).periodCount * s.params.periodLength + u.residue
      exec (only (.charge b)) s = .next { (s.setLife i (.retiring { u with
            charge := min 4294967295 (u.charge + gain / 1000), residue := gain % 1000 } a c n)).setBay b { s.bay b with
          periodSum := 0, periodCount := 0 } with timer := opened (.charge b) }) ∧
    (∀ b, (s.bay b).sumOwner = none ∨ (s.bay b).periodCount = 0 ∨
        (∃ h, (s.bay b).sumOwner = some h ∧ ∀ i, s.handle i = h → (s.life i).holdsLoad = false) →
      exec (only (.charge b)) s = .next { s.setBay b { s.bay b with periodSum := 0, periodCount := 0 } with
        timer := opened (.charge b) })

/-! ### Conversions -/

/-- R94, R95, R96: the next conversion is the head of the pending CALIBRATION requests, else of the CONFIRM, else of the PORT requests, each
leaving its set, else a scan of the scan channel, which advances, TEMP followed by B0; in ascending sets, which every step keeps, the head is
the lowest channel; a request that joins a set keeps it ascending, and one already there adds nothing. The result a conversion delivers (R93): of a bay's
channel the raw value less the offset, held to 0 to 1000; of FEED and TEMP the raw value; for raw values in the range of the input. The end
of a PORT conversion of any channel gives its holder the result and the ready mark and acts on nothing else but the choice (R97, R98); the
first conversion after device reset is a scan of the scan channel (R95, log 8). Whether a request that the ending result raises reaches the
choice or comes after it is the operand's (R94, log 8). -/
def Obligations.SamplerServes : Prop :=
  (∀ (m : Sampler) (c : Channel) (rest : List Channel),
     (m.calRequests = c :: rest → m.choose = { m with calRequests := rest, current := some { kind := .calibration, channel := c } }) ∧
     (m.calRequests = [] → m.confirmRequests = c :: rest →
       m.choose = { m with confirmRequests := rest, current := some { kind := .confirm, channel := c } }) ∧
     (m.calRequests = [] → m.confirmRequests = [] → m.portRequests = c :: rest →
       m.choose = { m with portRequests := rest, current := some { kind := .port, channel := c } }) ∧
     (m.calRequests = [] → m.confirmRequests = [] → m.portRequests = [] →
       m.choose = { m with
         scanChannel := if m.scanChannel = 17 then 0 else m.scanChannel + 1
         current := some { kind := .scan, channel := m.scanChannel } })) ∧
  (∀ (m : Sampler) (c : Channel), m.calRequests.Pairwise (· < ·) → m.confirmRequests.Pairwise (· < ·) →
     m.portRequests.Pairwise (· < ·) →
     (c ∈ m.calRequests → (∀ d ∈ m.calRequests, c ≤ d) →
       m.choose = { m with calRequests := m.calRequests.filter (· ≠ c), current := some { kind := .calibration, channel := c } }) ∧
     (m.calRequests = [] → c ∈ m.confirmRequests → (∀ d ∈ m.confirmRequests, c ≤ d) →
       m.choose = { m with confirmRequests := m.confirmRequests.filter (· ≠ c), current := some { kind := .confirm, channel := c } }) ∧
     (m.calRequests = [] → m.confirmRequests = [] → c ∈ m.portRequests → (∀ d ∈ m.portRequests, c ≤ d) →
       m.choose = { m with portRequests := m.portRequests.filter (· ≠ c), current := some { kind := .port, channel := c } })) ∧
  (∀ (c d : Channel) (l : List Channel), (d ∈ addChannel c l ↔ d = c ∨ d ∈ l) ∧ (addChannel c l).Pairwise (· < ·)) ∧
  (∀ (s : State) (raw : Int),
     (∀ b : BayIdx, -100 ≤ raw → raw ≤ 1100 →
       (s.resultOf (bayChannel b) raw : Int) = max 0 (min 1000 (raw - (s.bay b).offset))) ∧
     (0 ≤ raw → raw ≤ 4000 → (s.resultOf feedChannel raw : Int) = raw) ∧
     (0 ≤ raw → raw ≤ 63 → (s.resultOf tempChannel raw : Int) = raw)) ∧
  (∀ (s : State) (raw : Int) (late : Bool),
     (∀ c : Channel, s.sampler.current = some { kind := .port, channel := c } →
       ∃ holders : Vector Holder 18,
         (∀ d, holders.get d = if d = c then { ready := true, result := s.resultOf c raw } else s.sampler.holders.get d) ∧
         exec (.conversionEnd ⟨raw, late⟩) s = .next { s with sampler := { s.sampler with holders := holders }.choose }) ∧
     (s.sampler.current = none → exec (.conversionEnd ⟨raw, late⟩) s = exec (.conversionEnd ⟨raw, late⟩) { s with sampler := { s.sampler with
       current := some { kind := .scan, channel := s.sampler.scanChannel }
       scanChannel := if s.sampler.scanChannel = 17 then 0 else s.sampler.scanChannel + 1 } }))

/-- A scan result of a bay (R101, R102, R108, R113): the latest sample takes it; under a GRANTED or RETIRING record it is counted for the
charge; a result above the limit in force plus the tolerance under a GRANTED record raises a CONFIRM request; one above the stray threshold
does on a bay without such a record that is IDLE, unblocked and past its stray grace; a bay that is SAMPLING, blocked or in stray grace
is not judged. The limit in force is the decrease-grace limit while there is one, else the limit. -/
def Obligations.BayScanned : Prop :=
  (∀ y : Bay, y.limitInForce = match y.decreaseGrace with | some n => n | none => y.limit) ∧
  ∀ (s : State) (raw : Int) (late : Bool) (b : BayIdx), s.sampler.current = some { kind := .scan, channel := bayChannel b } →
    let r := s.resultOf (bayChannel b) raw
    let y := s.bay b
    (∀ i u g, y.record = some i → s.life i = .granted u g → y.calState = .idle →
        exec (.conversionEnd ⟨raw, late⟩) s = .next { s.setBay b (scanned s b i r) with
          sampler := if y.limitInForce + s.params.tolerance < r then confirmRaised late (bayChannel b) s.sampler
            else s.sampler.choose }) ∧
      (∀ i u a c n, y.record = some i → s.life i = .retiring u a c n → y.calState = .idle → s.params.restThreshold < r →
        exec (.conversionEnd ⟨raw, late⟩) s = .next { s.setBay b (scanned s b i r) with sampler := s.sampler.choose }) ∧
      ((∀ i, y.record = some i → ∃ u w, s.life i = .waiting u w) → y.calState = .idle → y.blockCause = .none →
        y.strayGrace = false →
        exec (.conversionEnd ⟨raw, late⟩) s = .next { s.setBay b { y with latestSample := r } with
          sampler := if s.params.strayThreshold < r then confirmRaised late (bayChannel b) s.sampler else s.sampler.choose }) ∧
      ((∀ i, y.record = some i → ∃ u w, s.life i = .waiting u w) →
        (y.calState = .sampling ∨ y.calState = .idle ∧ (y.blockCause ≠ .none ∨ y.strayGrace = true)) →
        exec (.conversionEnd ⟨raw, late⟩) s = .next { s.setBay b { y with latestSample := r } with sampler := s.sampler.choose })

/-- A CONFIRM result of a bay (R101, R103 to R105, R109): under a GRANTED record one above the limit in force plus the tolerance is a
strike, and at the strike limit the record enters RETIRING with OVERDRAW in the same step; without such a record one above the stray
threshold blocks the bay with STRAY, adds BLOCKED and raises the bay's flag; a result at or below its bound, and a bay that is calibrating,
blocked or in stray grace, changes only the latest sample. -/
def Obligations.BayConfirmed : Prop :=
  ∀ (s : State) (raw : Int) (late : Bool) (b : BayIdx), s.sampler.current = some { kind := .confirm, channel := bayChannel b } →
    let r := s.resultOf (bayChannel b) raw
    let y := s.bay b
    let v := s.setBay b { y with latestSample := r }
    (∀ i u g, y.record = some i → s.life i = .granted u g →
      (r ≤ y.limitInForce + s.params.tolerance → exec (.conversionEnd ⟨raw, late⟩) s = .next { v with sampler := s.sampler.choose }) ∧
      (y.limitInForce + s.params.tolerance < r → g.strikes + 1 ≠ s.params.strikeLimit →
        exec (.conversionEnd ⟨raw, late⟩) s = .next { v.setLife i (.granted u { g with strikes := g.strikes + 1 }) with
          sampler := s.sampler.choose }) ∧
      (y.limitInForce + s.params.tolerance < r → g.strikes + 1 = s.params.strikeLimit →
        ∃ t, EntersRetiring (v.setLife i (.granted u { g with strikes := g.strikes + 1 })) t i u { g with strikes := g.strikes + 1 }
            .overdraw ∧
          exec (.conversionEnd ⟨raw, late⟩) s = .next { t with sampler := s.sampler.choose })) ∧
    ((∀ i, y.record = some i → ∃ u w, s.life i = .waiting u w) →
      ((y.calState ≠ .idle ∨ y.blockCause ≠ .none ∨ y.strayGrace = true ∨ r ≤ s.params.strayThreshold) →
        exec (.conversionEnd ⟨raw, late⟩) s = .next { v with sampler := s.sampler.choose }) ∧
      (y.calState = .idle → y.blockCause = .none → y.strayGrace = false → s.params.strayThreshold < r →
        exec (.conversionEnd ⟨raw, late⟩) s = .next { (s.setBay b { y with
            latestSample := r, blockCause := .stray, events := { y.events with blocked := true } }).raise (bayFlag b) with
          sampler := s.sampler.choose }))

/-- Ramp end (R20, R102, R103, R107): a scan or CONFIRM result at or below the rest threshold under a RETIRING record ends its ramp: SPENT,
not forced, with the cause it had, and no bay is blocked; a scan result is counted for the charge first, the one that ends the ramp too (R113,
section 5.10), a CONFIRM result is not. A CONFIRM result above it changes only the latest sample. -/
def Obligations.RampEnds : Prop :=
  ∀ (s : State) (raw : Int) (late : Bool) (b : BayIdx) (i : RecIdx) (u : Terms) (a n : Nat) (c : EndCause) (kind : ConvKind),
    s.sampler.current = some { kind := kind, channel := bayChannel b } → (s.bay b).record = some i →
    s.life i = .retiring u a c n → (s.bay b).calState = .idle →
    (kind = .confirm → s.params.restThreshold < s.resultOf (bayChannel b) raw →
      exec (.conversionEnd ⟨raw, late⟩) s = .next { s.setBay b { s.bay b with latestSample := s.resultOf (bayChannel b) raw } with
        sampler := s.sampler.choose }) ∧
    (kind = .scan ∨ kind = .confirm → s.resultOf (bayChannel b) raw ≤ s.params.restThreshold →
      let r := s.resultOf (bayChannel b) raw
      let y := if kind = .scan then scanned s b i r else { s.bay b with latestSample := r }
      ∃ t, EntersSpent (s.setBay b y) t i u c false ∧ exec (.conversionEnd ⟨raw, late⟩) s = .next { t with sampler := s.sampler.choose })

/-- FEED (R111, R112): in RUNNING or HOLD a scan result above the effective ceiling plus the feed margin raises a CONFIRM request, and a
CONFIRM result above it trips the part; every other FEED result is discarded. -/
def Obligations.FeedSupervised : Prop :=
  ∀ (s : State) (raw : Int) (late : Bool),
    let above := (s.alloc.opState = .running ∨ s.alloc.opState = .hold) ∧
      s.alloc.effCeiling + s.params.feedMargin < s.resultOf feedChannel raw
    (s.sampler.current = some { kind := .scan, channel := feedChannel } →
      (above → exec (.conversionEnd ⟨raw, late⟩) s = .next { s with sampler := confirmRaised late feedChannel s.sampler }) ∧
      (¬ above → exec (.conversionEnd ⟨raw, late⟩) s = .next { s with sampler := s.sampler.choose })) ∧
    (s.sampler.current = some { kind := .confirm, channel := feedChannel } →
      (above → ∃ t, EntersTrip s t ∧ exec (.conversionEnd ⟨raw, late⟩) s = .next { t with sampler := s.sampler.choose }) ∧
      (¬ above → exec (.conversionEnd ⟨raw, late⟩) s = .next { s with sampler := s.sampler.choose }))

/-- The zone of R130: EMPTY or below the warm code NORMAL, then WARM, HOT and CRITICAL at each code, with factors 100, 75, 50 and 0. TEMP
(R129, R130, R132, R141): a scan result is taken when the filtered code is EMPTY or differs from it by more than the hysteresis width; a
zone the new code moves is held, ZONE is raised and the Allocator takes it: in RUNNING and HOLD a CRITICAL zone sets the effective ceiling
to 0 and trips the part; any other raises or lowers the effective ceiling to floor(ceiling × zone factor / 100), which the Allocator takes as
it does one that CEILING.WRITE brings: a fall below some load begins reclaiming or runs a further reclaim step, a rise is a pass trigger
outside reclaiming and ends reclaiming, with RECLAIM raised, when every load fits (R136 to R140). -/
def Obligations.TempFiltered : Prop :=
  ((∀ p, zoneOf p none = .normal) ∧
     (∀ p f, f < p.warmCode → zoneOf p (some f) = .normal) ∧
     (∀ p f, p.warmCode ≤ f → f < p.hotCode → zoneOf p (some f) = .warm) ∧
     (∀ p f, p.warmCode ≤ f → p.hotCode ≤ f → f < p.criticalCode → zoneOf p (some f) = .hot) ∧
     (∀ p f, p.warmCode ≤ f → p.hotCode ≤ f → p.criticalCode ≤ f → zoneOf p (some f) = .critical) ∧
     Zone.normal.factor = 100 ∧ Zone.warm.factor = 75 ∧ Zone.hot.factor = 50 ∧ Zone.critical.factor = 0) ∧
  (∀ (s : State) (raw : Int) (late : Bool), s.sampler.current = some { kind := .scan, channel := tempChannel } →
     let r := s.resultOf tempChannel raw
     let taken := ∀ f, s.thermal.filtered = some f → f + s.params.hysteresis < r ∨ r + s.params.hysteresis < f
     let z := zoneOf s.params (some r)
     let e := s.alloc.ceiling * z.factor / 100
     let v := { s with thermal := { filtered := some r, zone := z } }.raise 17
     (¬ taken → exec (.conversionEnd ⟨raw, late⟩) s = .next { s with sampler := s.sampler.choose }) ∧
     (taken → z = s.thermal.zone → exec (.conversionEnd ⟨raw, late⟩) s = .next { s with
       thermal := { s.thermal with filtered := some r }, sampler := s.sampler.choose }) ∧
     (taken → z ≠ s.thermal.zone → z = .critical → (s.alloc.opState = .running ∨ s.alloc.opState = .hold) →
       ∃ t, EntersTrip { v with alloc := { s.alloc with effCeiling := 0 } } t ∧
         exec (.conversionEnd ⟨raw, late⟩) s = .next { t with sampler := s.sampler.choose }) ∧
     (taken → z ≠ s.thermal.zone → (z ≠ .critical ∨ s.alloc.opState = .standby ∨ s.alloc.opState = .trip) →
       (s.ListsExact → ∃ t, TakesEffective v e t ∧ exec (.conversionEnd ⟨raw, late⟩) s = .next { t with sampler := s.sampler.choose }) ∧
       ∃ t, exec (.conversionEnd ⟨raw, late⟩) s = .next t ∧ t.thermal = { filtered := some r, zone := z } ∧ t.alloc.effCeiling = e ∧
         t.alloc.opState = s.alloc.opState ∧ t.alloc.ceiling = s.alloc.ceiling ∧ t.attention.flags.get 17 = .raisedUnseen ∧
         ((∀ p, s.load p ≤ e) → s.alloc.reclaiming = false → t = { v with
           alloc := { s.alloc with
             effCeiling := e
             passDue := s.alloc.passDue || (decide (s.alloc.effCeiling < e) && s.alloc.opState == OpState.running) }
           sampler := s.sampler.choose })))

/-- Calibration (R101, R120 to R123): a scan result above the stray threshold on a SETTLING bay without a GRANTED or RETIRING record ends the
calibration NOT_QUIET; a CALIBRATION result in SAMPLING above the threshold does too; up to the seventh it is counted and the next request
raised; the eighth completes it with the mean floor(sum / 8), PASS and a new offset from -40 to +40, OUT_OF_RANGE otherwise; an end adds
CAL_DONE, raises the bay's flag and is a pass trigger; a result in IDLE is discarded. With another bay SAMPLING and its request
pending, the next request waits behind it when it comes after the choice, so that the two bays' conversions interleave (R94, R121, log 8). -/
def Obligations.CalibrationTaken : Prop :=
  (∀ (s : State) (raw : Int) (late : Bool) (b : BayIdx), -100 ≤ raw → raw ≤ 1100 →
    let y := s.bay b
    let ended := fun (w : Bay) (m : Sampler) => { (s.setBay b { w with
        calState := .idle, settleLeft := 0, samplesTaken := 0, sampleSum := 0, events := { y.events with calDone := true } }).raise
          (bayFlag b) with
      alloc := { s.alloc with passDue := s.alloc.passDue || (s.alloc.opState == OpState.running && !s.alloc.reclaiming) }
      sampler := m }
    let mean := (y.sampleSum + raw) / 8
    (s.sampler.current = some { kind := .scan, channel := bayChannel b } → y.calState = .settling →
      (∀ i, y.record = some i → ∃ u w, s.life i = .waiting u w) →
      (s.params.strayThreshold < s.resultOf (bayChannel b) raw → exec (.conversionEnd ⟨raw, late⟩) s =
        .next (ended { y with latestSample := s.resultOf (bayChannel b) raw, lastResult := .notQuiet } s.sampler.choose)) ∧
      (s.resultOf (bayChannel b) raw ≤ s.params.strayThreshold → exec (.conversionEnd ⟨raw, late⟩) s =
        .next { s.setBay b { y with latestSample := s.resultOf (bayChannel b) raw } with sampler := s.sampler.choose })) ∧
    (s.sampler.current = some { kind := .calibration, channel := bayChannel b } →
      (y.calState = .idle → exec (.conversionEnd ⟨raw, late⟩) s = .next { s with sampler := s.sampler.choose }) ∧
      (y.calState = .sampling →
        ((s.params.strayThreshold : Int) < raw →
          exec (.conversionEnd ⟨raw, late⟩) s = .next (ended { y with lastResult := .notQuiet } s.sampler.choose)) ∧
        (raw ≤ s.params.strayThreshold → y.samplesTaken < 7 →
          exec (.conversionEnd ⟨raw, late⟩) s = .next { s.setBay b { y with
              samplesTaken := y.samplesTaken + 1, sampleSum := y.sampleSum + raw } with
            sampler := calibrationRaised late (bayChannel b) s.sampler }) ∧
        (raw ≤ s.params.strayThreshold → y.samplesTaken = 7 → -40 ≤ mean → mean ≤ 40 →
          exec (.conversionEnd ⟨raw, late⟩) s = .next (ended { y with offset := mean, lastResult := .pass } s.sampler.choose)) ∧
        (raw ≤ s.params.strayThreshold → y.samplesTaken = 7 → (mean < -40 ∨ 40 < mean) →
          exec (.conversionEnd ⟨raw, late⟩) s = .next (ended { y with lastResult := .outOfRange } s.sampler.choose))))) ∧
  (∀ (m : Sampler) (a b : BayIdx), m.calRequests = [bayChannel b] → a ≠ b →
     (calibrationRaised true (bayChannel a) m).current = some { kind := .calibration, channel := bayChannel b } ∧
     (calibrationRaised true (bayChannel a) m).calRequests = [bayChannel a] ∧
     (a < b → (calibrationRaised false (bayChannel a) m).current = some { kind := .calibration, channel := bayChannel a } ∧
       (calibrationRaised false (bayChannel a) m).calRequests = [bayChannel b]))

/-! ### What every step keeps -/

/-- Every predicate below holds after device reset. -/
def Obligations.InvariantsHoldAtReset : Prop :=
  State.reset.ListsExact ∧ State.reset.BaysExact ∧ State.reset.GrantsWithinTerms ∧ State.reset.EditWindowExact ∧
    State.reset.LoadsExact ∧ State.reset.ReclaimExact ∧ State.reset.HoldsExact ∧ State.reset.params.Legal ∧ State.reset.TimerExact ∧
    State.reset.ThermalExact ∧ State.reset.ClockExact ∧ State.reset.DutiesExact ∧ State.reset.OutputsExact ∧
    State.reset.ClosedBaysClear ∧ State.reset.CalibrationsExact ∧ State.reset.RequestsExact

/-- R6, R8, R35, R38: every step keeps each record in the one collection its state calls for, and the wait queue in class-descending order.
-/
def Obligations.ListsStayExact : Prop :=
  (∀ (s : State) (i : RecIdx) (u : Terms), (s.life i).terms? = some u → s.classOf i = u.cls) ∧
  ∀ s t : State, s.ListsExact → step s = .next t → t.ListsExact

/-- R7, R74, R75, R80, R83: every step keeps each bay's entry naming exactly its live record, its enable CLOSED exactly under a GRANTED or
RETIRING record, never outside RUNNING and HOLD nor on a blocked or calibrating bay, and its limit at most the active grant. -/
def Obligations.BaysStayExact : Prop :=
  ∀ s t : State, s.FreeListExact → s.BaysExact → s.OutputsExact → s.ClosedBaysClear → step s = .next t →
    t.BaysExact ∧ t.OutputsExact ∧ t.ClosedBaysClear

/-- R29: every step keeps the load of each position equal to the sum, over the records on at the position, of the larger of the active and
the staged grant of a GRANTED record and the active grant of a RETIRING one. R134: every step keeps the Allocator reclaiming exactly while
some load exceeds the effective ceiling. -/
def Obligations.LoadsStayExact : Prop :=
  (∀ (l : Life) (p : Position), l.loadAt p = match l with
     | .granted u g => if u.onAt p then max g.active g.staged else 0
     | .retiring u a _ _ => if u.onAt p then a else 0
     | _ => 0) ∧
  (∀ s t : State, s.FreeListExact → s.LoadsExact → step s = .next t → t.LoadsExact) ∧
  (∀ s t : State, s.FreeListExact → s.LoadsExact → s.ReclaimExact → step s = .next t → t.ReclaimExact)

/-- R154: every step keeps RUNNING free of hold reasons and HOLD holding one. R145, R148 to R151: every step keeps the hold reason CLOCK set
exactly in FALLBACK, and a return pending or a good window counted only there. -/
def Obligations.HoldsStayExact : Prop :=
  (∀ s t : State, s.HoldsExact → step s = .next t → t.HoldsExact) ∧
  (∀ s t : State, s.ClockExact → step s = .next t → t.ClockExact)

/-- R161, R54, R55, R57: every step keeps the parameters in their ranges and orderings, the millisecond count below the period length, and
the timer running exactly outside STANDBY, at count 0 and position 0 in it. -/
def Obligations.ParametersAndTimerStayLegal : Prop :=
  ∀ s t : State, s.params.Legal → s.TimerExact → step s = .next t → t.params.Legal ∧ t.TimerExact

/-- R33, R130: every step keeps the zone the one the filtered code and the codes give, and the effective ceiling floor(ceiling × factor /
100). -/
def Obligations.ThermalStaysExact : Prop :=
  ∀ s t : State, s.ThermalExact → step s = .next t → t.ThermalExact

/-- R72, R82: every step keeps each staged duty at floor(limit × 1000 / 630). R116, R122, R123: every step keeps the offsets from -40 to +40
and the counts of a calibration at 0 outside their phases. R96: every step keeps each kind's pending requests in strictly ascending order, so
that a channel is in a set at most once and the head is the lowest, CALIBRATION requests for bay channels only and CONFIRM requests for bay
channels and FEED. -/
def Obligations.DutiesStayExact : Prop :=
  (∀ s t : State, s.DutiesExact → step s = .next t → t.DutiesExact) ∧
  (∀ s t : State, s.CalibrationsExact → step s = .next t → t.CalibrationsExact) ∧
  (∀ s t : State, s.RequestsExact → step s = .next t → t.RequestsExact)

/-- R25: every step keeps floor ≤ staged grant ≤ requested for every GRANTED record. R179, R180: every step keeps the record under an open
window that is not STALE WAITING or GRANTED under the window's handle. -/
def Obligations.GrantsStayWithinTerms : Prop :=
  (∀ s t : State, s.GrantsWithinTerms → step s = .next t → t.GrantsWithinTerms) ∧
  (∀ s t : State, s.EditWindowExact → step s = .next t → t.EditWindowExact)

end Statements
end

