-- ==== Sys2Proof/Laws/State.lean ====
section
/-!
SUPPORT. Reading a component, a record, a bay entry, a load or a flag after a named update: one lemma per field per update, so that no
proof unfolds a record update.
-/
namespace Sys2Proof.Machine

/-! ### Components an update does not touch -/

@[simp] theorem State.alloc_setRecord (s : State) (i : RecIdx) (r : Record) : (s.setRecord i r).alloc = s.alloc := rfl
@[simp] theorem State.timer_setRecord (s : State) (i : RecIdx) (r : Record) : (s.setRecord i r).timer = s.timer := rfl
@[simp] theorem State.bays_setRecord (s : State) (i : RecIdx) (r : Record) : (s.setRecord i r).bays = s.bays := rfl
@[simp] theorem State.closeWindowLeft_setRecord (s : State) (i : RecIdx) (r : Record) : (s.setRecord i r).closeWindowLeft = s.closeWindowLeft := rfl
@[simp] theorem State.sampler_setRecord (s : State) (i : RecIdx) (r : Record) : (s.setRecord i r).sampler = s.sampler := rfl
@[simp] theorem State.thermal_setRecord (s : State) (i : RecIdx) (r : Record) : (s.setRecord i r).thermal = s.thermal := rfl
@[simp] theorem State.clock_setRecord (s : State) (i : RecIdx) (r : Record) : (s.setRecord i r).clock = s.clock := rfl
@[simp] theorem State.link_setRecord (s : State) (i : RecIdx) (r : Record) : (s.setRecord i r).link = s.link := rfl
@[simp] theorem State.attention_setRecord (s : State) (i : RecIdx) (r : Record) : (s.setRecord i r).attention = s.attention := rfl
@[simp] theorem State.params_setRecord (s : State) (i : RecIdx) (r : Record) : (s.setRecord i r).params = s.params := rfl
@[simp] theorem State.reply_setRecord (s : State) (i : RecIdx) (r : Record) : (s.setRecord i r).reply = s.reply := rfl
@[simp] theorem State.pending_setRecord (s : State) (i : RecIdx) (r : Record) : (s.setRecord i r).pending = s.pending := rfl

@[simp] theorem State.alloc_setLife (s : State) (i : RecIdx) (l : Life) : (s.setLife i l).alloc = s.alloc := rfl
@[simp] theorem State.timer_setLife (s : State) (i : RecIdx) (l : Life) : (s.setLife i l).timer = s.timer := rfl
@[simp] theorem State.bays_setLife (s : State) (i : RecIdx) (l : Life) : (s.setLife i l).bays = s.bays := rfl
@[simp] theorem State.closeWindowLeft_setLife (s : State) (i : RecIdx) (l : Life) : (s.setLife i l).closeWindowLeft = s.closeWindowLeft := rfl
@[simp] theorem State.sampler_setLife (s : State) (i : RecIdx) (l : Life) : (s.setLife i l).sampler = s.sampler := rfl
@[simp] theorem State.thermal_setLife (s : State) (i : RecIdx) (l : Life) : (s.setLife i l).thermal = s.thermal := rfl
@[simp] theorem State.clock_setLife (s : State) (i : RecIdx) (l : Life) : (s.setLife i l).clock = s.clock := rfl
@[simp] theorem State.link_setLife (s : State) (i : RecIdx) (l : Life) : (s.setLife i l).link = s.link := rfl
@[simp] theorem State.attention_setLife (s : State) (i : RecIdx) (l : Life) : (s.setLife i l).attention = s.attention := rfl
@[simp] theorem State.params_setLife (s : State) (i : RecIdx) (l : Life) : (s.setLife i l).params = s.params := rfl
@[simp] theorem State.reply_setLife (s : State) (i : RecIdx) (l : Life) : (s.setLife i l).reply = s.reply := rfl
@[simp] theorem State.pending_setLife (s : State) (i : RecIdx) (l : Life) : (s.setLife i l).pending = s.pending := rfl

@[simp] theorem State.alloc_setWaitReason (s : State) (i : RecIdx) (r : WaitReason) : (s.setWaitReason i r).alloc = s.alloc := rfl
@[simp] theorem State.timer_setWaitReason (s : State) (i : RecIdx) (r : WaitReason) : (s.setWaitReason i r).timer = s.timer := rfl
@[simp] theorem State.bays_setWaitReason (s : State) (i : RecIdx) (r : WaitReason) : (s.setWaitReason i r).bays = s.bays := rfl
@[simp] theorem State.closeWindowLeft_setWaitReason (s : State) (i : RecIdx) (r : WaitReason) : (s.setWaitReason i r).closeWindowLeft = s.closeWindowLeft := rfl
@[simp] theorem State.sampler_setWaitReason (s : State) (i : RecIdx) (r : WaitReason) : (s.setWaitReason i r).sampler = s.sampler := rfl
@[simp] theorem State.thermal_setWaitReason (s : State) (i : RecIdx) (r : WaitReason) : (s.setWaitReason i r).thermal = s.thermal := rfl
@[simp] theorem State.clock_setWaitReason (s : State) (i : RecIdx) (r : WaitReason) : (s.setWaitReason i r).clock = s.clock := rfl
@[simp] theorem State.link_setWaitReason (s : State) (i : RecIdx) (r : WaitReason) : (s.setWaitReason i r).link = s.link := rfl
@[simp] theorem State.attention_setWaitReason (s : State) (i : RecIdx) (r : WaitReason) : (s.setWaitReason i r).attention = s.attention := rfl
@[simp] theorem State.params_setWaitReason (s : State) (i : RecIdx) (r : WaitReason) : (s.setWaitReason i r).params = s.params := rfl
@[simp] theorem State.reply_setWaitReason (s : State) (i : RecIdx) (r : WaitReason) : (s.setWaitReason i r).reply = s.reply := rfl
@[simp] theorem State.pending_setWaitReason (s : State) (i : RecIdx) (r : WaitReason) : (s.setWaitReason i r).pending = s.pending := rfl

@[simp] theorem State.alloc_setAllWaitReasons (s : State) (r : WaitReason) : (s.setAllWaitReasons r).alloc = s.alloc := by simp only [State.setAllWaitReasons]
@[simp] theorem State.timer_setAllWaitReasons (s : State) (r : WaitReason) : (s.setAllWaitReasons r).timer = s.timer := by simp only [State.setAllWaitReasons]
@[simp] theorem State.bays_setAllWaitReasons (s : State) (r : WaitReason) : (s.setAllWaitReasons r).bays = s.bays := by simp only [State.setAllWaitReasons]
@[simp] theorem State.closeWindowLeft_setAllWaitReasons (s : State) (r : WaitReason) : (s.setAllWaitReasons r).closeWindowLeft = s.closeWindowLeft := by simp only [State.setAllWaitReasons]
@[simp] theorem State.sampler_setAllWaitReasons (s : State) (r : WaitReason) : (s.setAllWaitReasons r).sampler = s.sampler := by simp only [State.setAllWaitReasons]
@[simp] theorem State.thermal_setAllWaitReasons (s : State) (r : WaitReason) : (s.setAllWaitReasons r).thermal = s.thermal := by simp only [State.setAllWaitReasons]
@[simp] theorem State.clock_setAllWaitReasons (s : State) (r : WaitReason) : (s.setAllWaitReasons r).clock = s.clock := by simp only [State.setAllWaitReasons]
@[simp] theorem State.link_setAllWaitReasons (s : State) (r : WaitReason) : (s.setAllWaitReasons r).link = s.link := by simp only [State.setAllWaitReasons]
@[simp] theorem State.attention_setAllWaitReasons (s : State) (r : WaitReason) : (s.setAllWaitReasons r).attention = s.attention := by simp only [State.setAllWaitReasons]
@[simp] theorem State.params_setAllWaitReasons (s : State) (r : WaitReason) : (s.setAllWaitReasons r).params = s.params := by simp only [State.setAllWaitReasons]
@[simp] theorem State.reply_setAllWaitReasons (s : State) (r : WaitReason) : (s.setAllWaitReasons r).reply = s.reply := by simp only [State.setAllWaitReasons]
@[simp] theorem State.pending_setAllWaitReasons (s : State) (r : WaitReason) : (s.setAllWaitReasons r).pending = s.pending := by simp only [State.setAllWaitReasons]

@[simp] theorem State.pool_setBay (s : State) (b : BayIdx) (y : Bay) : (s.setBay b y).pool = s.pool := rfl
@[simp] theorem State.alloc_setBay (s : State) (b : BayIdx) (y : Bay) : (s.setBay b y).alloc = s.alloc := rfl
@[simp] theorem State.timer_setBay (s : State) (b : BayIdx) (y : Bay) : (s.setBay b y).timer = s.timer := rfl
@[simp] theorem State.closeWindowLeft_setBay (s : State) (b : BayIdx) (y : Bay) : (s.setBay b y).closeWindowLeft = s.closeWindowLeft := rfl
@[simp] theorem State.sampler_setBay (s : State) (b : BayIdx) (y : Bay) : (s.setBay b y).sampler = s.sampler := rfl
@[simp] theorem State.thermal_setBay (s : State) (b : BayIdx) (y : Bay) : (s.setBay b y).thermal = s.thermal := rfl
@[simp] theorem State.clock_setBay (s : State) (b : BayIdx) (y : Bay) : (s.setBay b y).clock = s.clock := rfl
@[simp] theorem State.link_setBay (s : State) (b : BayIdx) (y : Bay) : (s.setBay b y).link = s.link := rfl
@[simp] theorem State.attention_setBay (s : State) (b : BayIdx) (y : Bay) : (s.setBay b y).attention = s.attention := rfl
@[simp] theorem State.params_setBay (s : State) (b : BayIdx) (y : Bay) : (s.setBay b y).params = s.params := rfl
@[simp] theorem State.reply_setBay (s : State) (b : BayIdx) (y : Bay) : (s.setBay b y).reply = s.reply := rfl
@[simp] theorem State.pending_setBay (s : State) (b : BayIdx) (y : Bay) : (s.setBay b y).pending = s.pending := rfl

@[simp] theorem State.pool_modBay (s : State) (b : BayIdx) (f : Bay → Bay) : (s.modBay b f).pool = s.pool := rfl
@[simp] theorem State.alloc_modBay (s : State) (b : BayIdx) (f : Bay → Bay) : (s.modBay b f).alloc = s.alloc := rfl
@[simp] theorem State.timer_modBay (s : State) (b : BayIdx) (f : Bay → Bay) : (s.modBay b f).timer = s.timer := rfl
@[simp] theorem State.closeWindowLeft_modBay (s : State) (b : BayIdx) (f : Bay → Bay) : (s.modBay b f).closeWindowLeft = s.closeWindowLeft := rfl
@[simp] theorem State.sampler_modBay (s : State) (b : BayIdx) (f : Bay → Bay) : (s.modBay b f).sampler = s.sampler := rfl
@[simp] theorem State.thermal_modBay (s : State) (b : BayIdx) (f : Bay → Bay) : (s.modBay b f).thermal = s.thermal := rfl
@[simp] theorem State.clock_modBay (s : State) (b : BayIdx) (f : Bay → Bay) : (s.modBay b f).clock = s.clock := rfl
@[simp] theorem State.link_modBay (s : State) (b : BayIdx) (f : Bay → Bay) : (s.modBay b f).link = s.link := rfl
@[simp] theorem State.attention_modBay (s : State) (b : BayIdx) (f : Bay → Bay) : (s.modBay b f).attention = s.attention := rfl
@[simp] theorem State.params_modBay (s : State) (b : BayIdx) (f : Bay → Bay) : (s.modBay b f).params = s.params := rfl
@[simp] theorem State.reply_modBay (s : State) (b : BayIdx) (f : Bay → Bay) : (s.modBay b f).reply = s.reply := rfl
@[simp] theorem State.pending_modBay (s : State) (b : BayIdx) (f : Bay → Bay) : (s.modBay b f).pending = s.pending := rfl

@[simp] theorem State.pool_modBays (s : State) (f : Bay → Bay) : (s.modBays f).pool = s.pool := rfl
@[simp] theorem State.alloc_modBays (s : State) (f : Bay → Bay) : (s.modBays f).alloc = s.alloc := rfl
@[simp] theorem State.timer_modBays (s : State) (f : Bay → Bay) : (s.modBays f).timer = s.timer := rfl
@[simp] theorem State.closeWindowLeft_modBays (s : State) (f : Bay → Bay) : (s.modBays f).closeWindowLeft = s.closeWindowLeft := rfl
@[simp] theorem State.sampler_modBays (s : State) (f : Bay → Bay) : (s.modBays f).sampler = s.sampler := rfl
@[simp] theorem State.thermal_modBays (s : State) (f : Bay → Bay) : (s.modBays f).thermal = s.thermal := rfl
@[simp] theorem State.clock_modBays (s : State) (f : Bay → Bay) : (s.modBays f).clock = s.clock := rfl
@[simp] theorem State.link_modBays (s : State) (f : Bay → Bay) : (s.modBays f).link = s.link := rfl
@[simp] theorem State.attention_modBays (s : State) (f : Bay → Bay) : (s.modBays f).attention = s.attention := rfl
@[simp] theorem State.params_modBays (s : State) (f : Bay → Bay) : (s.modBays f).params = s.params := rfl
@[simp] theorem State.reply_modBays (s : State) (f : Bay → Bay) : (s.modBays f).reply = s.reply := rfl
@[simp] theorem State.pending_modBays (s : State) (f : Bay → Bay) : (s.modBays f).pending = s.pending := rfl

@[simp] theorem State.pool_answer (s : State) (c : ReplyCode) (l : List Byte) : (s.answer c l).pool = s.pool := rfl
@[simp] theorem State.alloc_answer (s : State) (c : ReplyCode) (l : List Byte) : (s.answer c l).alloc = s.alloc := rfl
@[simp] theorem State.timer_answer (s : State) (c : ReplyCode) (l : List Byte) : (s.answer c l).timer = s.timer := rfl
@[simp] theorem State.bays_answer (s : State) (c : ReplyCode) (l : List Byte) : (s.answer c l).bays = s.bays := rfl
@[simp] theorem State.closeWindowLeft_answer (s : State) (c : ReplyCode) (l : List Byte) : (s.answer c l).closeWindowLeft = s.closeWindowLeft := rfl
@[simp] theorem State.sampler_answer (s : State) (c : ReplyCode) (l : List Byte) : (s.answer c l).sampler = s.sampler := rfl
@[simp] theorem State.thermal_answer (s : State) (c : ReplyCode) (l : List Byte) : (s.answer c l).thermal = s.thermal := rfl
@[simp] theorem State.clock_answer (s : State) (c : ReplyCode) (l : List Byte) : (s.answer c l).clock = s.clock := rfl
@[simp] theorem State.link_answer (s : State) (c : ReplyCode) (l : List Byte) : (s.answer c l).link = s.link := rfl
@[simp] theorem State.attention_answer (s : State) (c : ReplyCode) (l : List Byte) : (s.answer c l).attention = s.attention := rfl
@[simp] theorem State.params_answer (s : State) (c : ReplyCode) (l : List Byte) : (s.answer c l).params = s.params := rfl
@[simp] theorem State.pending_answer (s : State) (c : ReplyCode) (l : List Byte) : (s.answer c l).pending = s.pending := rfl

@[simp] theorem State.pool_ok (s : State) : (s.ok).pool = s.pool := rfl
@[simp] theorem State.alloc_ok (s : State) : (s.ok).alloc = s.alloc := rfl
@[simp] theorem State.timer_ok (s : State) : (s.ok).timer = s.timer := rfl
@[simp] theorem State.bays_ok (s : State) : (s.ok).bays = s.bays := rfl
@[simp] theorem State.closeWindowLeft_ok (s : State) : (s.ok).closeWindowLeft = s.closeWindowLeft := rfl
@[simp] theorem State.sampler_ok (s : State) : (s.ok).sampler = s.sampler := rfl
@[simp] theorem State.thermal_ok (s : State) : (s.ok).thermal = s.thermal := rfl
@[simp] theorem State.clock_ok (s : State) : (s.ok).clock = s.clock := rfl
@[simp] theorem State.link_ok (s : State) : (s.ok).link = s.link := rfl
@[simp] theorem State.attention_ok (s : State) : (s.ok).attention = s.attention := rfl
@[simp] theorem State.params_ok (s : State) : (s.ok).params = s.params := rfl
@[simp] theorem State.pending_ok (s : State) : (s.ok).pending = s.pending := rfl

@[simp] theorem State.pool_refuse (s : State) (c : ReplyCode) : (s.refuse c).pool = s.pool := rfl
@[simp] theorem State.alloc_refuse (s : State) (c : ReplyCode) : (s.refuse c).alloc = s.alloc := rfl
@[simp] theorem State.timer_refuse (s : State) (c : ReplyCode) : (s.refuse c).timer = s.timer := rfl
@[simp] theorem State.bays_refuse (s : State) (c : ReplyCode) : (s.refuse c).bays = s.bays := rfl
@[simp] theorem State.closeWindowLeft_refuse (s : State) (c : ReplyCode) : (s.refuse c).closeWindowLeft = s.closeWindowLeft := rfl
@[simp] theorem State.sampler_refuse (s : State) (c : ReplyCode) : (s.refuse c).sampler = s.sampler := rfl
@[simp] theorem State.thermal_refuse (s : State) (c : ReplyCode) : (s.refuse c).thermal = s.thermal := rfl
@[simp] theorem State.clock_refuse (s : State) (c : ReplyCode) : (s.refuse c).clock = s.clock := rfl
@[simp] theorem State.link_refuse (s : State) (c : ReplyCode) : (s.refuse c).link = s.link := rfl
@[simp] theorem State.attention_refuse (s : State) (c : ReplyCode) : (s.refuse c).attention = s.attention := rfl
@[simp] theorem State.params_refuse (s : State) (c : ReplyCode) : (s.refuse c).params = s.params := rfl
@[simp] theorem State.pending_refuse (s : State) (c : ReplyCode) : (s.refuse c).pending = s.pending := rfl

@[simp] theorem State.pool_raise (s : State) (f : Flag) : (s.raise f).pool = s.pool := rfl
@[simp] theorem State.alloc_raise (s : State) (f : Flag) : (s.raise f).alloc = s.alloc := rfl
@[simp] theorem State.timer_raise (s : State) (f : Flag) : (s.raise f).timer = s.timer := rfl
@[simp] theorem State.bays_raise (s : State) (f : Flag) : (s.raise f).bays = s.bays := rfl
@[simp] theorem State.closeWindowLeft_raise (s : State) (f : Flag) : (s.raise f).closeWindowLeft = s.closeWindowLeft := rfl
@[simp] theorem State.sampler_raise (s : State) (f : Flag) : (s.raise f).sampler = s.sampler := rfl
@[simp] theorem State.thermal_raise (s : State) (f : Flag) : (s.raise f).thermal = s.thermal := rfl
@[simp] theorem State.clock_raise (s : State) (f : Flag) : (s.raise f).clock = s.clock := rfl
@[simp] theorem State.link_raise (s : State) (f : Flag) : (s.raise f).link = s.link := rfl
@[simp] theorem State.params_raise (s : State) (f : Flag) : (s.raise f).params = s.params := rfl
@[simp] theorem State.reply_raise (s : State) (f : Flag) : (s.raise f).reply = s.reply := rfl
@[simp] theorem State.pending_raise (s : State) (f : Flag) : (s.raise f).pending = s.pending := rfl

@[simp] theorem State.pool_addEvent (s : State) (b : BayIdx) (e : BayEvent) : (s.addEvent b e).pool = s.pool := rfl
@[simp] theorem State.alloc_addEvent (s : State) (b : BayIdx) (e : BayEvent) : (s.addEvent b e).alloc = s.alloc := rfl
@[simp] theorem State.timer_addEvent (s : State) (b : BayIdx) (e : BayEvent) : (s.addEvent b e).timer = s.timer := rfl
@[simp] theorem State.closeWindowLeft_addEvent (s : State) (b : BayIdx) (e : BayEvent) : (s.addEvent b e).closeWindowLeft = s.closeWindowLeft := rfl
@[simp] theorem State.sampler_addEvent (s : State) (b : BayIdx) (e : BayEvent) : (s.addEvent b e).sampler = s.sampler := rfl
@[simp] theorem State.thermal_addEvent (s : State) (b : BayIdx) (e : BayEvent) : (s.addEvent b e).thermal = s.thermal := rfl
@[simp] theorem State.clock_addEvent (s : State) (b : BayIdx) (e : BayEvent) : (s.addEvent b e).clock = s.clock := rfl
@[simp] theorem State.link_addEvent (s : State) (b : BayIdx) (e : BayEvent) : (s.addEvent b e).link = s.link := rfl
@[simp] theorem State.params_addEvent (s : State) (b : BayIdx) (e : BayEvent) : (s.addEvent b e).params = s.params := rfl
@[simp] theorem State.reply_addEvent (s : State) (b : BayIdx) (e : BayEvent) : (s.addEvent b e).reply = s.reply := rfl
@[simp] theorem State.pending_addEvent (s : State) (b : BayIdx) (e : BayEvent) : (s.addEvent b e).pending = s.pending := rfl

@[simp] theorem State.pool_blockBay (s : State) (b : BayIdx) (c : BlockCause) : (s.blockBay b c).pool = s.pool := rfl
@[simp] theorem State.alloc_blockBay (s : State) (b : BayIdx) (c : BlockCause) : (s.blockBay b c).alloc = s.alloc := rfl
@[simp] theorem State.timer_blockBay (s : State) (b : BayIdx) (c : BlockCause) : (s.blockBay b c).timer = s.timer := rfl
@[simp] theorem State.closeWindowLeft_blockBay (s : State) (b : BayIdx) (c : BlockCause) : (s.blockBay b c).closeWindowLeft = s.closeWindowLeft := rfl
@[simp] theorem State.sampler_blockBay (s : State) (b : BayIdx) (c : BlockCause) : (s.blockBay b c).sampler = s.sampler := rfl
@[simp] theorem State.thermal_blockBay (s : State) (b : BayIdx) (c : BlockCause) : (s.blockBay b c).thermal = s.thermal := rfl
@[simp] theorem State.clock_blockBay (s : State) (b : BayIdx) (c : BlockCause) : (s.blockBay b c).clock = s.clock := rfl
@[simp] theorem State.link_blockBay (s : State) (b : BayIdx) (c : BlockCause) : (s.blockBay b c).link = s.link := rfl
@[simp] theorem State.params_blockBay (s : State) (b : BayIdx) (c : BlockCause) : (s.blockBay b c).params = s.params := rfl
@[simp] theorem State.reply_blockBay (s : State) (b : BayIdx) (c : BlockCause) : (s.blockBay b c).reply = s.reply := rfl
@[simp] theorem State.pending_blockBay (s : State) (b : BayIdx) (c : BlockCause) : (s.blockBay b c).pending = s.pending := rfl

@[simp] theorem State.pool_unlist (s : State) (i : RecIdx) : (s.unlist i).pool = s.pool := rfl
@[simp] theorem State.timer_unlist (s : State) (i : RecIdx) : (s.unlist i).timer = s.timer := rfl
@[simp] theorem State.bays_unlist (s : State) (i : RecIdx) : (s.unlist i).bays = s.bays := rfl
@[simp] theorem State.closeWindowLeft_unlist (s : State) (i : RecIdx) : (s.unlist i).closeWindowLeft = s.closeWindowLeft := rfl
@[simp] theorem State.sampler_unlist (s : State) (i : RecIdx) : (s.unlist i).sampler = s.sampler := rfl
@[simp] theorem State.thermal_unlist (s : State) (i : RecIdx) : (s.unlist i).thermal = s.thermal := rfl
@[simp] theorem State.clock_unlist (s : State) (i : RecIdx) : (s.unlist i).clock = s.clock := rfl
@[simp] theorem State.link_unlist (s : State) (i : RecIdx) : (s.unlist i).link = s.link := rfl
@[simp] theorem State.attention_unlist (s : State) (i : RecIdx) : (s.unlist i).attention = s.attention := rfl
@[simp] theorem State.params_unlist (s : State) (i : RecIdx) : (s.unlist i).params = s.params := rfl
@[simp] theorem State.reply_unlist (s : State) (i : RecIdx) : (s.unlist i).reply = s.reply := rfl
@[simp] theorem State.pending_unlist (s : State) (i : RecIdx) : (s.unlist i).pending = s.pending := rfl

@[simp] theorem State.pool_enqueue (s : State) (i : RecIdx) (c : Fin 4) : (s.enqueue i c).pool = s.pool := rfl
@[simp] theorem State.timer_enqueue (s : State) (i : RecIdx) (c : Fin 4) : (s.enqueue i c).timer = s.timer := rfl
@[simp] theorem State.bays_enqueue (s : State) (i : RecIdx) (c : Fin 4) : (s.enqueue i c).bays = s.bays := rfl
@[simp] theorem State.closeWindowLeft_enqueue (s : State) (i : RecIdx) (c : Fin 4) : (s.enqueue i c).closeWindowLeft = s.closeWindowLeft := rfl
@[simp] theorem State.sampler_enqueue (s : State) (i : RecIdx) (c : Fin 4) : (s.enqueue i c).sampler = s.sampler := rfl
@[simp] theorem State.thermal_enqueue (s : State) (i : RecIdx) (c : Fin 4) : (s.enqueue i c).thermal = s.thermal := rfl
@[simp] theorem State.clock_enqueue (s : State) (i : RecIdx) (c : Fin 4) : (s.enqueue i c).clock = s.clock := rfl
@[simp] theorem State.link_enqueue (s : State) (i : RecIdx) (c : Fin 4) : (s.enqueue i c).link = s.link := rfl
@[simp] theorem State.attention_enqueue (s : State) (i : RecIdx) (c : Fin 4) : (s.enqueue i c).attention = s.attention := rfl
@[simp] theorem State.params_enqueue (s : State) (i : RecIdx) (c : Fin 4) : (s.enqueue i c).params = s.params := rfl
@[simp] theorem State.reply_enqueue (s : State) (i : RecIdx) (c : Fin 4) : (s.enqueue i c).reply = s.reply := rfl
@[simp] theorem State.pending_enqueue (s : State) (i : RecIdx) (c : Fin 4) : (s.enqueue i c).pending = s.pending := rfl

@[simp] theorem State.pool_requestConfirm (s : State) (c : Channel) : (s.requestConfirm c).pool = s.pool := rfl
@[simp] theorem State.alloc_requestConfirm (s : State) (c : Channel) : (s.requestConfirm c).alloc = s.alloc := rfl
@[simp] theorem State.timer_requestConfirm (s : State) (c : Channel) : (s.requestConfirm c).timer = s.timer := rfl
@[simp] theorem State.bays_requestConfirm (s : State) (c : Channel) : (s.requestConfirm c).bays = s.bays := rfl
@[simp] theorem State.closeWindowLeft_requestConfirm (s : State) (c : Channel) : (s.requestConfirm c).closeWindowLeft = s.closeWindowLeft := rfl
@[simp] theorem State.thermal_requestConfirm (s : State) (c : Channel) : (s.requestConfirm c).thermal = s.thermal := rfl
@[simp] theorem State.clock_requestConfirm (s : State) (c : Channel) : (s.requestConfirm c).clock = s.clock := rfl
@[simp] theorem State.link_requestConfirm (s : State) (c : Channel) : (s.requestConfirm c).link = s.link := rfl
@[simp] theorem State.attention_requestConfirm (s : State) (c : Channel) : (s.requestConfirm c).attention = s.attention := rfl
@[simp] theorem State.params_requestConfirm (s : State) (c : Channel) : (s.requestConfirm c).params = s.params := rfl
@[simp] theorem State.reply_requestConfirm (s : State) (c : Channel) : (s.requestConfirm c).reply = s.reply := rfl
@[simp] theorem State.pending_requestConfirm (s : State) (c : Channel) : (s.requestConfirm c).pending = s.pending := rfl

@[simp] theorem State.pool_requestCalibration (s : State) (b : BayIdx) : (s.requestCalibration b).pool = s.pool := rfl
@[simp] theorem State.alloc_requestCalibration (s : State) (b : BayIdx) : (s.requestCalibration b).alloc = s.alloc := rfl
@[simp] theorem State.timer_requestCalibration (s : State) (b : BayIdx) : (s.requestCalibration b).timer = s.timer := rfl
@[simp] theorem State.bays_requestCalibration (s : State) (b : BayIdx) : (s.requestCalibration b).bays = s.bays := rfl
@[simp] theorem State.closeWindowLeft_requestCalibration (s : State) (b : BayIdx) : (s.requestCalibration b).closeWindowLeft = s.closeWindowLeft := rfl
@[simp] theorem State.thermal_requestCalibration (s : State) (b : BayIdx) : (s.requestCalibration b).thermal = s.thermal := rfl
@[simp] theorem State.clock_requestCalibration (s : State) (b : BayIdx) : (s.requestCalibration b).clock = s.clock := rfl
@[simp] theorem State.link_requestCalibration (s : State) (b : BayIdx) : (s.requestCalibration b).link = s.link := rfl
@[simp] theorem State.attention_requestCalibration (s : State) (b : BayIdx) : (s.requestCalibration b).attention = s.attention := rfl
@[simp] theorem State.params_requestCalibration (s : State) (b : BayIdx) : (s.requestCalibration b).params = s.params := rfl
@[simp] theorem State.reply_requestCalibration (s : State) (b : BayIdx) : (s.requestCalibration b).reply = s.reply := rfl
@[simp] theorem State.pending_requestCalibration (s : State) (b : BayIdx) : (s.requestCalibration b).pending = s.pending := rfl

@[simp] theorem State.pool_requestPort (s : State) (c : Channel) : (s.requestPort c).pool = s.pool := rfl
@[simp] theorem State.alloc_requestPort (s : State) (c : Channel) : (s.requestPort c).alloc = s.alloc := rfl
@[simp] theorem State.timer_requestPort (s : State) (c : Channel) : (s.requestPort c).timer = s.timer := rfl
@[simp] theorem State.bays_requestPort (s : State) (c : Channel) : (s.requestPort c).bays = s.bays := rfl
@[simp] theorem State.closeWindowLeft_requestPort (s : State) (c : Channel) : (s.requestPort c).closeWindowLeft = s.closeWindowLeft := rfl
@[simp] theorem State.thermal_requestPort (s : State) (c : Channel) : (s.requestPort c).thermal = s.thermal := rfl
@[simp] theorem State.clock_requestPort (s : State) (c : Channel) : (s.requestPort c).clock = s.clock := rfl
@[simp] theorem State.link_requestPort (s : State) (c : Channel) : (s.requestPort c).link = s.link := rfl
@[simp] theorem State.attention_requestPort (s : State) (c : Channel) : (s.requestPort c).attention = s.attention := rfl
@[simp] theorem State.params_requestPort (s : State) (c : Channel) : (s.requestPort c).params = s.params := rfl
@[simp] theorem State.reply_requestPort (s : State) (c : Channel) : (s.requestPort c).reply = s.reply := rfl
@[simp] theorem State.pending_requestPort (s : State) (c : Channel) : (s.requestPort c).pending = s.pending := rfl
/-! ### Components an update writes -/

@[simp] theorem State.reply_answer (s : State) (c : ReplyCode) (l : List Byte) :
    (s.answer c l).reply = some { code := c, body := l } := rfl
@[simp] theorem State.reply_ok (s : State) : s.ok.reply = some { code := .ok, body := [] } := rfl
@[simp] theorem State.reply_refuse (s : State) (c : ReplyCode) : (s.refuse c).reply = some { code := c, body := [] } := rfl
@[simp] theorem State.freeList_setRecord (s : State) (i : RecIdx) (r : Record) :
    (s.setRecord i r).pool.freeList = s.pool.freeList := rfl
@[simp] theorem State.freeList_setLife (s : State) (i : RecIdx) (l : Life) : (s.setLife i l).pool.freeList = s.pool.freeList := rfl
@[simp] theorem State.freeList_setWaitReason (s : State) (i : RecIdx) (r : WaitReason) :
    (s.setWaitReason i r).pool.freeList = s.pool.freeList := rfl
@[simp] theorem State.freeList_setAllWaitReasons (s : State) (r : WaitReason) :
    (s.setAllWaitReasons r).pool.freeList = s.pool.freeList := by simp only [State.setAllWaitReasons]
@[simp] theorem State.edit_setRecord (s : State) (i : RecIdx) (r : Record) : (s.setRecord i r).pool.edit = s.pool.edit := rfl
@[simp] theorem State.edit_setLife (s : State) (i : RecIdx) (l : Life) : (s.setLife i l).pool.edit = s.pool.edit := rfl
@[simp] theorem State.edit_setWaitReason (s : State) (i : RecIdx) (r : WaitReason) :
    (s.setWaitReason i r).pool.edit = s.pool.edit := rfl
@[simp] theorem State.edit_setAllWaitReasons (s : State) (r : WaitReason) :
    (s.setAllWaitReasons r).pool.edit = s.pool.edit := by simp only [State.setAllWaitReasons]
@[simp] theorem State.enables_raise (s : State) (f : Flag) : (s.raise f).attention.enables = s.attention.enables := rfl
@[simp] theorem State.enables_addEvent (s : State) (b : BayIdx) (e : BayEvent) :
    (s.addEvent b e).attention.enables = s.attention.enables := rfl
@[simp] theorem State.waitQueue_unlist (s : State) (i : RecIdx) :
    (s.unlist i).alloc.waitQueue = s.alloc.waitQueue.filter (· ≠ i) := rfl
@[simp] theorem State.grantOrder_unlist (s : State) (i : RecIdx) :
    (s.unlist i).alloc.grantOrder = s.alloc.grantOrder.filter (· ≠ i) := rfl
@[simp] theorem State.grantOrder_enqueue (s : State) (i : RecIdx) (c : Fin 4) :
    (s.enqueue i c).alloc.grantOrder = s.alloc.grantOrder := rfl
@[simp] theorem State.loads_unlist (s : State) (i : RecIdx) : (s.unlist i).alloc.loads = s.alloc.loads := rfl
@[simp] theorem State.loads_enqueue (s : State) (i : RecIdx) (c : Fin 4) : (s.enqueue i c).alloc.loads = s.alloc.loads := rfl
@[simp] theorem State.effCeiling_unlist (s : State) (i : RecIdx) : (s.unlist i).alloc.effCeiling = s.alloc.effCeiling := rfl
@[simp] theorem State.effCeiling_enqueue (s : State) (i : RecIdx) (c : Fin 4) :
    (s.enqueue i c).alloc.effCeiling = s.alloc.effCeiling := rfl
@[simp] theorem State.reclaiming_unlist (s : State) (i : RecIdx) : (s.unlist i).alloc.reclaiming = s.alloc.reclaiming := rfl
@[simp] theorem State.reclaiming_enqueue (s : State) (i : RecIdx) (c : Fin 4) :
    (s.enqueue i c).alloc.reclaiming = s.alloc.reclaiming := rfl

@[simp] theorem Allocator.waitQueue_shift (a : Allocator) (t : Terms) (m n : Nat) : (a.shift t m n).waitQueue = a.waitQueue := by
  simp only [Allocator.shift]
@[simp] theorem Allocator.grantOrder_shift (a : Allocator) (t : Terms) (m n : Nat) : (a.shift t m n).grantOrder = a.grantOrder := by
  simp only [Allocator.shift]
@[simp] theorem Allocator.ceiling_shift (a : Allocator) (t : Terms) (m n : Nat) : (a.shift t m n).ceiling = a.ceiling := by
  simp only [Allocator.shift]
@[simp] theorem Allocator.effCeiling_shift (a : Allocator) (t : Terms) (m n : Nat) : (a.shift t m n).effCeiling = a.effCeiling := by
  simp only [Allocator.shift]
@[simp] theorem Allocator.opState_shift (a : Allocator) (t : Terms) (m n : Nat) : (a.shift t m n).opState = a.opState := by
  simp only [Allocator.shift]
@[simp] theorem Allocator.holdPort_shift (a : Allocator) (t : Terms) (m n : Nat) : (a.shift t m n).holdPort = a.holdPort := by
  simp only [Allocator.shift]
@[simp] theorem Allocator.holdClock_shift (a : Allocator) (t : Terms) (m n : Nat) : (a.shift t m n).holdClock = a.holdClock := by
  simp only [Allocator.shift]
@[simp] theorem Allocator.reclaiming_shift (a : Allocator) (t : Terms) (m n : Nat) : (a.shift t m n).reclaiming = a.reclaiming := by
  simp only [Allocator.shift]
@[simp] theorem Allocator.passDue_shift (a : Allocator) (t : Terms) (m n : Nat) : (a.shift t m n).passDue = a.passDue := by
  simp only [Allocator.shift]

/-- The shifted load of a position (R30). -/
theorem Allocator.loads_shift (a : Allocator) (t : Terms) (m n : Nat) (p : Position) :
    (a.shift t m n).loads.get p = if t.onAt p then a.loads.get p + n - m else a.loads.get p := by
  simp only [Allocator.shift, Vector.get_eq_getElem, Vector.getElem_ofFn]

/-! ### Tables are read through their component -/

theorem State.record_congr {s t : State} (h : t.pool = s.pool) (i : RecIdx) : t.record i = s.record i := by
  simp only [State.record, h]

theorem State.life_congr {s t : State} (h : t.pool = s.pool) (i : RecIdx) : t.life i = s.life i := by
  simp only [State.life, State.record, h]

theorem State.resolve_congr {s t : State} (h : ∀ i, (t.record i).generation = (s.record i).generation) (v : Nat) :
    t.resolve v = s.resolve v := by
  simp only [State.resolve, h]

theorem State.bay_congr {s t : State} (h : t.bays = s.bays) (b : BayIdx) : t.bay b = s.bay b := by
  simp only [State.bay, h]

theorem State.load_congr {s t : State} (h : t.alloc = s.alloc) (p : Position) : t.load p = s.load p := by
  simp only [State.load, h]

/-! ### Records after an update -/

theorem State.record_setRecord (s : State) (i : RecIdx) (r : Record) (j : RecIdx) :
    (s.setRecord i r).record j = if j = i then r else s.record j := by
  simp only [State.record, State.setRecord, Vector.get_eq_getElem, Vector.getElem_set, Fin.ext_iff, eq_comm]

@[simp] theorem State.record_setRecord_self (s : State) (i : RecIdx) (r : Record) : (s.setRecord i r).record i = r := by
  simp [State.record_setRecord]

theorem State.life_setLife (s : State) (i : RecIdx) (l : Life) (j : RecIdx) :
    (s.setLife i l).life j = if j = i then l else s.life j := by
  simp only [State.life, State.setLife, State.record_setRecord]
  split <;> rfl

@[simp] theorem State.life_setLife_self (s : State) (i : RecIdx) (l : Life) : (s.setLife i l).life i = l := by
  simp [State.life_setLife]

@[simp] theorem State.generation_setLife (s : State) (i : RecIdx) (l : Life) (j : RecIdx) :
    ((s.setLife i l).record j).generation = (s.record j).generation := by
  simp only [State.setLife, State.record_setRecord]
  split
  · subst_vars
    rfl
  · rfl

theorem State.life_setWaitReason (s : State) (i : RecIdx) (r : WaitReason) (j : RecIdx) :
    (s.setWaitReason i r).life j = if j = i then (s.life i).withReason r else s.life j :=
  State.life_setLife ..

@[simp] theorem State.record_setAllWaitReasons (s : State) (r : WaitReason) (i : RecIdx) :
    (s.setAllWaitReasons r).record i = { s.record i with life := (s.life i).withReason r } := by
  simp [State.record, State.setAllWaitReasons, Vector.get_eq_getElem]

@[simp] theorem State.life_setAllWaitReasons (s : State) (r : WaitReason) (i : RecIdx) :
    (s.setAllWaitReasons r).life i = (s.life i).withReason r := by
  rw [State.life, State.record_setAllWaitReasons]

/-! ### Bay entries after an update -/

theorem State.bay_setBay (s : State) (b : BayIdx) (y : Bay) (c : BayIdx) :
    (s.setBay b y).bay c = if c = b then y else s.bay c := by
  simp only [State.bay, State.setBay, Vector.get_eq_getElem, Vector.getElem_set, Fin.ext_iff, eq_comm]

theorem State.bay_modBay (s : State) (b : BayIdx) (f : Bay → Bay) (c : BayIdx) :
    (s.modBay b f).bay c = if c = b then f (s.bay b) else s.bay c :=
  State.bay_setBay ..

@[simp] theorem State.bay_modBay_self (s : State) (b : BayIdx) (f : Bay → Bay) : (s.modBay b f).bay b = f (s.bay b) := by
  simp [State.bay_modBay]

@[simp] theorem State.bay_modBays (s : State) (f : Bay → Bay) (b : BayIdx) : (s.modBays f).bay b = f (s.bay b) := by
  simp [State.bay, State.modBays, Vector.get_eq_getElem]

theorem State.bay_addEvent (s : State) (b : BayIdx) (e : BayEvent) (c : BayIdx) :
    (s.addEvent b e).bay c = if c = b then { s.bay b with events := (s.bay b).events.add e } else s.bay c := by
  rw [State.addEvent, State.bay_congr (State.bays_raise ..), State.bay_modBay]

/-! ### Flags after an update -/

theorem State.flag_raise (s : State) (f g : Flag) :
    (s.raise f).attention.flags.get g = if g = f then .raisedUnseen else s.attention.flags.get g := by
  simp only [State.raise, Vector.get_eq_getElem, Vector.getElem_set, Fin.ext_iff, eq_comm]

theorem State.flag_addEvent (s : State) (b : BayIdx) (e : BayEvent) (g : Flag) :
    (s.addEvent b e).attention.flags.get g = if g = bayFlag b then .raisedUnseen else s.attention.flags.get g :=
  State.flag_raise ..

end Sys2Proof.Machine
end

