-- ==== Sys2Proof/Laws/Frame.lean ====
section
/-!
SUPPORT. What each shared operation leaves alone, said once per operation: four frames of growing strength and one lemma per operation.
-/
namespace Sys2Proof.Machine

/-! ### The frames -/

/-- What no operation on records, loads and bay outputs changes: the other blocks, the configuration, the port, the queue of waiting
commands, the hold reasons, the generations, and which records are FREE. -/
structure Kept (s t : State) : Prop where
  thermal : t.thermal = s.thermal
  clock : t.clock = s.clock
  link : t.link = s.link
  params : t.params = s.params
  reply : t.reply = s.reply
  pending : t.pending = s.pending
  ceiling : t.alloc.ceiling = s.alloc.ceiling
  holdPort : t.alloc.holdPort = s.alloc.holdPort
  holdClock : t.alloc.holdClock = s.alloc.holdClock
  enables : t.attention.enables = s.attention.enables
  freeList : t.pool.freeList = s.pool.freeList
  generation : ∀ i, (t.record i).generation = (s.record i).generation
  free : ∀ i, t.life i = .free ↔ s.life i = .free

/-- Kept, and the operating state and the effective ceiling stand. -/
structure Steady (s t : State) : Prop extends Kept s t where
  opState : t.alloc.opState = s.alloc.opState
  effCeiling : t.alloc.effCeiling = s.alloc.effCeiling

/-- A bay's entry with the fields that record operations write set to one value: what is left is the link, the gate,
the samples and the calibration. -/
def Bay.others (y : Bay) : Bay :=
  { y with
    record := none, lastSpent := none, events := EventSet.empty, enable := .opened, limit := 0, stagedDuty := 0, decreaseGrace := none,
    strayGrace := false, closeCount := 0, blockCause := .none, inEffectDuty := 0 }

/-- Kept, and the timer, the close window, the Sampler and the other fields of every bay stand. -/
structure Untouched (s t : State) : Prop extends Kept s t where
  timer : t.timer = s.timer
  closeWindowLeft : t.closeWindowLeft = s.closeWindowLeft
  sampler : t.sampler = s.sampler
  bays : ∀ b, (t.bay b).others = (s.bay b).others

/-- Steady and Untouched: a record operation that moves neither the operating state nor the effective ceiling. -/
structure Quiet (s t : State) : Prop extends Steady s t, Untouched s t

theorem Kept.refl (s : State) : Kept s s := by
  constructor <;> intros <;> rfl

theorem Kept.trans {s t u : State} (h : Kept s t) (k : Kept t u) : Kept s u where
  thermal := k.thermal.trans h.thermal
  clock := k.clock.trans h.clock
  link := k.link.trans h.link
  params := k.params.trans h.params
  reply := k.reply.trans h.reply
  pending := k.pending.trans h.pending
  ceiling := k.ceiling.trans h.ceiling
  holdPort := k.holdPort.trans h.holdPort
  holdClock := k.holdClock.trans h.holdClock
  enables := k.enables.trans h.enables
  freeList := k.freeList.trans h.freeList
  generation i := (k.generation i).trans (h.generation i)
  free i := (k.free i).trans (h.free i)

theorem Steady.refl (s : State) : Steady s s := ⟨.refl s, rfl, rfl⟩

theorem Steady.trans {s t u : State} (h : Steady s t) (k : Steady t u) : Steady s u :=
  ⟨h.toKept.trans k.toKept, k.opState.trans h.opState, k.effCeiling.trans h.effCeiling⟩

theorem Untouched.refl (s : State) : Untouched s s := ⟨.refl s, rfl, rfl, rfl, fun _ => rfl⟩

theorem Untouched.trans {s t u : State} (h : Untouched s t) (k : Untouched t u) : Untouched s u :=
  ⟨h.toKept.trans k.toKept, k.timer.trans h.timer, k.closeWindowLeft.trans h.closeWindowLeft, k.sampler.trans h.sampler,
    fun b => (k.bays b).trans (h.bays b)⟩

theorem Quiet.refl (s : State) : Quiet s s := ⟨.refl s, rfl, rfl, rfl, fun _ => rfl⟩

theorem Quiet.trans {s t u : State} (h : Quiet s t) (k : Quiet t u) : Quiet s u :=
  { h.toSteady.trans k.toSteady, h.toUntouched.trans k.toUntouched with }

theorem Quiet.foldl {α : Type} {f : State → α → State} (hf : ∀ s a, Quiet s (f s a)) :
    ∀ (l : List α) (s : State), Quiet s (l.foldl f s)
  | [], s => .refl s
  | a :: l, s => (hf s a).trans (Quiet.foldl hf l (f s a))

theorem Steady.foldl {α : Type} {f : State → α → State} (hf : ∀ s a, Steady s (f s a)) :
    ∀ (l : List α) (s : State), Steady s (l.foldl f s)
  | [], s => .refl s
  | a :: l, s => (hf s a).trans (Steady.foldl hf l (f s a))

/-- A handle names the same record before and after. -/
theorem Kept.resolve {s t : State} (h : Kept s t) (v : Nat) : t.resolve v = s.resolve v :=
  State.resolve_congr h.generation v

theorem Kept.handle {s t : State} (h : Kept s t) (i : RecIdx) : t.handle i = s.handle i := by
  rw [State.handle, State.handle, h.generation]

/-! ### Elementary operations -/

/-- A frame from its fields, most of which hold by definition. -/
theorem Quiet.of {s t : State} (generation : ∀ i, (t.record i).generation = (s.record i).generation := by intro _; rfl)
    (free : ∀ i, t.life i = .free ↔ s.life i = .free := by intro _; exact Iff.rfl)
    (bays : ∀ b, (t.bay b).others = (s.bay b).others := by intro _; rfl)
    (thermal : t.thermal = s.thermal := by rfl) (clock : t.clock = s.clock := by rfl) (link : t.link = s.link := by rfl)
    (params : t.params = s.params := by rfl) (reply : t.reply = s.reply := by rfl) (pending : t.pending = s.pending := by rfl)
    (ceiling : t.alloc.ceiling = s.alloc.ceiling := by rfl) (holdPort : t.alloc.holdPort = s.alloc.holdPort := by rfl)
    (holdClock : t.alloc.holdClock = s.alloc.holdClock := by rfl)
    (enables : t.attention.enables = s.attention.enables := by rfl) (freeList : t.pool.freeList = s.pool.freeList := by rfl)
    (opState : t.alloc.opState = s.alloc.opState := by rfl) (effCeiling : t.alloc.effCeiling = s.alloc.effCeiling := by rfl)
    (timer : t.timer = s.timer := by rfl) (closeWindowLeft : t.closeWindowLeft = s.closeWindowLeft := by rfl)
    (sampler : t.sampler = s.sampler := by rfl) : Quiet s t :=
  { thermal, clock, link, params, reply, pending, ceiling, holdPort, holdClock, enables, freeList, generation, free, opState, effCeiling,
    timer, closeWindowLeft, sampler, bays }

/-- A change of the Attention Unit that keeps the enables. -/
theorem quiet_attention (s : State) (a : Attention) (h : a.enables = s.attention.enables) : Quiet s { s with attention := a } :=
  .of (enables := h)

/-- A change of the Allocator that keeps the operating state, the ceilings and the hold reasons. -/
theorem quiet_alloc (s : State) (a : Allocator) (opState : a.opState = s.alloc.opState) (effCeiling : a.effCeiling = s.alloc.effCeiling)
    (ceiling : a.ceiling = s.alloc.ceiling) (holdPort : a.holdPort = s.alloc.holdPort) (holdClock : a.holdClock = s.alloc.holdClock) :
    Quiet s { s with alloc := a } :=
  .of (opState := opState) (effCeiling := effCeiling) (ceiling := ceiling) (holdPort := holdPort) (holdClock := holdClock)

/-- A change of the edit window. -/
theorem quiet_edit (s : State) (w : Option EditWindow) : Quiet s { s with pool := { s.pool with edit := w } } := .of

/-- A change of the bays that keeps the other fields of every bay. -/
theorem quiet_bays (s : State) (v : Vector Bay 16) (h : ∀ b, (v.get b).others = (s.bay b).others) : Quiet s { s with bays := v } :=
  .of (bays := h)

theorem quiet_raise (s : State) (f : Flag) : Quiet s (s.raise f) := quiet_attention s _ rfl

theorem quiet_trigger (s : State) : Quiet s s.trigger := by
  unfold State.trigger
  split
  · exact quiet_alloc s _ rfl rfl rfl rfl rfl
  · exact .refl s

theorem quiet_evaluate (s : State) : Quiet s s.evaluate := by
  unfold State.evaluate
  split
  · exact (quiet_alloc s { s.alloc with reclaiming := false } rfl rfl rfl rfl rfl).trans ((quiet_raise _ _).trans (quiet_trigger _))
  · exact .refl s

theorem quiet_contribute (s : State) (t : Terms) (a b : Nat) : Quiet s (s.contribute t a b) := by
  unfold State.contribute
  split
  · exact .refl s
  · have h : Quiet s { s with alloc := s.alloc.shift t a b }.evaluate :=
      (quiet_alloc s (s.alloc.shift t a b) (by simp) (by simp) (by simp) (by simp) (by simp)).trans (quiet_evaluate _)
    dsimp only
    split
    · exact h.trans (quiet_trigger _)
    · exact h

theorem quiet_modBay (s : State) (b : BayIdx) (f : Bay → Bay) (hf : ∀ y, (f y).others = y.others) : Quiet s (s.modBay b f) := by
  refine quiet_bays s _ fun c => ?_
  show ((s.modBay b f).bay c).others = _
  rw [State.bay_modBay]
  split
  · subst_vars
    exact hf _
  · rfl

theorem quiet_modBays (s : State) (f : Bay → Bay) (hf : ∀ y, (f y).others = y.others) : Quiet s (s.modBays f) :=
  quiet_bays s _ fun b => by
    show ((s.modBays f).bay b).others = _
    rw [State.bay_modBays]
    exact hf _

theorem quiet_addEvent (s : State) (b : BayIdx) (e : BayEvent) : Quiet s (s.addEvent b e) :=
  (quiet_modBay s b (fun y => { y with events := y.events.add e }) (fun _ => rfl)).trans (quiet_raise _ _)

theorem quiet_blockBay (s : State) (b : BayIdx) (c : BlockCause) : Quiet s (s.blockBay b c) :=
  (quiet_modBay s b (fun y => { y with blockCause := c }) (fun _ => rfl)).trans (quiet_addEvent _ _ _)

theorem quiet_markStale (s : State) (i : RecIdx) : Quiet s (s.markStale i) := by
  unfold State.markStale
  split
  · split
    · exact (quiet_edit s _).trans (quiet_raise _ _)
    · exact .refl s
  · exact .refl s

theorem quiet_unlist (s : State) (i : RecIdx) : Quiet s (s.unlist i) := quiet_alloc s _ rfl rfl rfl rfl rfl

theorem quiet_enqueue (s : State) (i : RecIdx) (c : Fin 4) : Quiet s (s.enqueue i c) := quiet_alloc s _ rfl rfl rfl rfl rfl

theorem quiet_setLife (s : State) (i : RecIdx) (l : Life) (h : l = .free ↔ s.life i = .free) : Quiet s (s.setLife i l) := by
  refine .of (generation := fun j => State.generation_setLife ..) (free := fun j => ?_)
  rw [State.life_setLife]
  split
  · subst_vars
    exact h
  · exact Iff.rfl

theorem Life.withReason_free (l : Life) (r : WaitReason) : l.withReason r = .free ↔ l = .free := by
  cases l <;> simp [Life.withReason]

theorem quiet_setWaitReason (s : State) (i : RecIdx) (r : WaitReason) : Quiet s (s.setWaitReason i r) :=
  quiet_setLife s i _ (Life.withReason_free _ _)

theorem quiet_setAllWaitReasons (s : State) (r : WaitReason) : Quiet s (s.setAllWaitReasons r) :=
  .of (generation := fun i => by rw [State.record_setAllWaitReasons])
    (free := fun i => by rw [State.life_setAllWaitReasons]; exact Life.withReason_free _ _)
    (bays := fun b => by rw [State.bay_congr (State.bays_setAllWaitReasons s r)])
    (thermal := State.thermal_setAllWaitReasons s r) (clock := State.clock_setAllWaitReasons s r)
    (link := State.link_setAllWaitReasons s r) (params := State.params_setAllWaitReasons s r)
    (reply := State.reply_setAllWaitReasons s r) (pending := State.pending_setAllWaitReasons s r)
    (ceiling := by rw [State.alloc_setAllWaitReasons]) (holdPort := by rw [State.alloc_setAllWaitReasons])
    (holdClock := by rw [State.alloc_setAllWaitReasons]) (enables := by rw [State.attention_setAllWaitReasons])
    (freeList := State.freeList_setAllWaitReasons s r) (opState := by rw [State.alloc_setAllWaitReasons])
    (effCeiling := by rw [State.alloc_setAllWaitReasons]) (timer := State.timer_setAllWaitReasons s r)
    (closeWindowLeft := State.closeWindowLeft_setAllWaitReasons s r) (sampler := State.sampler_setAllWaitReasons s r)

theorem quiet_become (s : State) (i : RecIdx) (l : Life) (h : l = .free ↔ s.life i = .free) : Quiet s (s.become i l) := by
  unfold State.become
  split
  · exact (quiet_setLife s i l h).trans (quiet_contribute _ _ _ _)
  · exact quiet_setLife s i l h

/-! ### Record transitions -/

theorem Bay.others_openEnable (y : Bay) : y.openEnable.others = y.others := by
  unfold Bay.openEnable
  split <;> rfl

theorem Bay.others_setLimit (y : Bay) (n : Nat) : (y.setLimit n).others = y.others := by
  unfold Bay.setLimit
  split <;> rfl

theorem quiet_leaveBay (s : State) (i : RecIdx) (b : BayIdx) : Quiet s (s.leaveBay i b) :=
  (((quiet_unlist s i).trans
    (quiet_modBay _ b (fun y => { y.openEnable with record := none, lastSpent := some (s.handle i) }) fun y => y.others_openEnable)).trans
    (quiet_addEvent _ b .spent)).trans (quiet_markStale _ i)

theorem quiet_enterSpent (s : State) (i : RecIdx) (c : EndCause) (f : Bool) : Quiet s (s.enterSpent i c f) := by
  unfold State.enterSpent
  split
  all_goals first
    | exact .refl s
    | rename_i h
      exact (quiet_become s i _ (by simp [h])).trans (quiet_leaveBay _ _ _)

theorem quiet_enterRetiring (s : State) (i : RecIdx) (c : EndCause) : Quiet s (s.enterRetiring i c) := by
  unfold State.enterRetiring
  split
  · rename_i h
    exact (((quiet_become s i _ (by simp [h])).trans (quiet_unlist _ _)).trans
      (quiet_modBay _ _ _ fun y => y.others_setLimit 0)).trans (quiet_markStale _ _)
  · exact .refl s

theorem quiet_rampEnd (s : State) (i : RecIdx) : Quiet s (s.rampEnd i) := by
  unfold State.rampEnd
  split
  · exact quiet_enterSpent _ _ _ _
  · exact .refl s

theorem quiet_rampCut (s : State) (i : RecIdx) : Quiet s (s.rampCut i) := by
  unfold State.rampCut
  split
  · exact (quiet_enterSpent _ _ _ _).trans (quiet_blockBay _ _ _)
  · exact .refl s

theorem quiet_stage (s : State) (i : RecIdx) (v : Nat) : Quiet s (s.stage i v) := by
  unfold State.stage
  split
  · rename_i h
    exact quiet_become s i _ (by simp [h])
  · exact .refl s

/-! ### Reclaiming, trip and the effective ceiling -/

theorem quiet_reclaimLower (s : State) (i : RecIdx) : Quiet s (s.reclaimLower i) := by
  unfold State.reclaimLower
  split
  · split
    · exact (quiet_stage _ _ _).trans (quiet_markStale _ _)
    · exact .refl s
  · exact .refl s

theorem quiet_reclaimRevoke (s : State) (i : RecIdx) : Quiet s (s.reclaimRevoke i) := by
  unfold State.reclaimRevoke
  split
  · split
    · exact quiet_enterRetiring _ _ _
    · exact .refl s
  · exact .refl s

theorem quiet_reclaimStep (s : State) : Quiet s s.reclaimStep :=
  (Quiet.foldl quiet_reclaimLower _ s).trans (Quiet.foldl quiet_reclaimRevoke _ _)

theorem quiet_beginReclaim (s : State) : Quiet s s.beginReclaim :=
  (((quiet_alloc s { s.alloc with reclaiming := true } rfl rfl rfl rfl rfl).trans (quiet_raise _ flagReclaim)).trans
    (quiet_setAllWaitReasons _ .budget)).trans (quiet_reclaimStep _)

theorem quiet_tripRecord (s : State) (i : RecIdx) : Quiet s (s.tripRecord i) := by
  unfold State.tripRecord
  split
  all_goals first
    | exact .refl s
    | rename_i h
      exact (quiet_setLife s i _ (by simp [h])).trans (quiet_leaveBay _ _ _)

/-- A recomputed effective ceiling leaves all but the effective ceiling and what a reclaim step writes. -/
theorem untouched_setEffective (s : State) (n : Nat) : Untouched s (s.setEffective n) := by
  unfold State.setEffective
  split
  · exact .refl s
  · have h : Untouched s { s with alloc := { s.alloc with effCeiling := n } } :=
      ⟨⟨rfl, rfl, rfl, rfl, rfl, rfl, rfl, rfl, rfl, rfl, rfl, fun _ => rfl, fun _ => Iff.rfl⟩, rfl, rfl, rfl, fun _ => rfl⟩
    dsimp only
    split
    · exact h.trans ((quiet_evaluate _).trans (quiet_trigger _)).toUntouched
    · split
      · exact h
      · split
        · exact h.trans (quiet_reclaimStep _).toUntouched
        · exact h.trans (quiet_beginReclaim _).toUntouched

/-- The new effective ceiling stands, and the operating state is not moved. -/
theorem effCeiling_setEffective (s : State) (n : Nat) :
    (s.setEffective n).alloc.effCeiling = n ∧ (s.setEffective n).alloc.opState = s.alloc.opState := by
  unfold State.setEffective
  split
  · rename_i h
    exact ⟨h.symm, rfl⟩
  · dsimp only
    split
    · exact ⟨((quiet_evaluate _).trans (quiet_trigger _)).effCeiling, ((quiet_evaluate _).trans (quiet_trigger _)).opState⟩
    · split
      · exact ⟨rfl, rfl⟩
      · split
        · exact ⟨(quiet_reclaimStep _).effCeiling, (quiet_reclaimStep _).opState⟩
        · exact ⟨(quiet_beginReclaim _).effCeiling, (quiet_beginReclaim _).opState⟩

theorem untouched_enterTrip (s : State) : Untouched s s.enterTrip := by
  have h1 : Untouched s ((allRecords.foldl State.tripRecord s).modBays Bay.openEnable) :=
    ((Quiet.foldl quiet_tripRecord _ s).trans (quiet_modBays _ _ Bay.others_openEnable)).toUntouched
  have h2 : ∀ u : State, Untouched u { u with alloc := u.alloc.tripped } := fun u =>
    ⟨⟨rfl, rfl, rfl, rfl, rfl, rfl, rfl, rfl, rfl, rfl, rfl, fun _ => rfl, fun _ => Iff.rfl⟩, rfl, rfl, rfl, fun _ => rfl⟩
  unfold State.enterTrip
  dsimp only
  refine (h1.trans (h2 _)).trans (.trans ?_ ((quiet_setAllWaitReasons _ _).trans (quiet_raise _ _)).toUntouched)
  split
  · exact (quiet_raise _ _).toUntouched
  · exact .refl _

/-- A zone report leaves the Thermal Monitor and the configuration alone. -/
theorem untouched_takeZone (s : State) (z : Zone) : Untouched s (s.takeZone z) := by
  unfold State.takeZone
  split
  · refine .trans ?_ (untouched_enterTrip _)
    exact ⟨⟨rfl, rfl, rfl, rfl, rfl, rfl, rfl, rfl, rfl, rfl, rfl, fun _ => rfl, fun _ => Iff.rfl⟩, rfl, rfl, rfl, fun _ => rfl⟩
  · exact untouched_setEffective _ _

/-! ### Changes of a live record -/

theorem quiet_requeue (s : State) (i : RecIdx) (c : Fin 4) : Quiet s (s.requeue i c) :=
  ((quiet_alloc s { s.alloc with waitQueue := s.alloc.waitQueue.filter (· ≠ i) } rfl rfl rfl rfl rfl).trans
    (quiet_enqueue _ i c)).trans (quiet_trigger _)

theorem quiet_applyChange (s : State) (i : RecIdx) (ch : ChangedFields) (c : EditCopy) : Quiet s (s.applyChange i ch c) := by
  unfold State.applyChange
  split
  · rename_i h
    dsimp only
    have h1 := fun l hl => quiet_setLife s i l hl
    split
    · exact (h1 _ (by simp [h])).trans (quiet_requeue _ _ _)
    · exact h1 _ (by simp [h])
  · rename_i h
    exact quiet_become s i _ (by simp [h])
  · exact .refl s

theorem quiet_reloadLease (s : State) (i : RecIdx) : Quiet s (s.reloadLease i) := by
  unfold State.reloadLease
  split
  · rename_i h
    split
    · exact .refl s
    · exact quiet_setLife s i _ (by simp [h])
  · exact .refl s

/-! ### The admission pass -/

theorem quiet_lowerToFloor (s : State) (i : RecIdx) : Quiet s (s.lowerToFloor i) := by
  unfold State.lowerToFloor
  split
  · exact (quiet_stage _ _ _).trans (quiet_markStale _ _)
  · exact .refl s

theorem quiet_squeeze (s : State) (t : Terms) : Quiet s (s.squeeze t) := by
  unfold State.squeeze
  split
  · exact .refl s
  · split
    · exact .refl s
    · split
      · exact Quiet.foldl quiet_lowerToFloor _ s
      · exact .refl s

theorem quiet_admission (s : State) (i : RecIdx) (t : Terms) (g : Nat) (h : s.life i ≠ .free) : Quiet s (s.admission i t g) := by
  have h1 : Quiet s (s.become i (.granted t (s.admittedGrant t g))) := quiet_become s i _ (by simp [h])
  have h2 (u : State) : Quiet u { u with alloc := { u.alloc with
      waitQueue := u.alloc.waitQueue.filter (· ≠ i), grantOrder := u.alloc.grantOrder ++ [i] } } :=
    quiet_alloc u _ rfl rfl rfl rfl rfl
  exact (((h1.trans (h2 _)).trans (quiet_modBay _ t.bay Bay.closeEnable fun _ => rfl)).trans (quiet_addEvent _ t.bay .admitted)).trans
    (quiet_markStale _ i)

theorem quiet_walk : ∀ (l : List RecIdx) (s : State), Quiet s (State.walk l s).1
  | [], s => .refl s
  | i :: rest, s => by
    unfold State.walk
    split
    · rename_i h
      split
      · exact (quiet_setWaitReason _ _ _).trans (quiet_walk rest _)
      · split
        · exact (quiet_admission _ _ _ _ (by simp [h])).trans (quiet_walk rest _)
        · exact (Quiet.foldl (fun s j => quiet_setWaitReason s j .budget) _ s).trans (quiet_squeeze _ _)
    · exact quiet_walk rest s

theorem quiet_restoreOne (s : State) (i : RecIdx) : Quiet s (s.restoreOne i) := by
  unfold State.restoreOne
  split
  · dsimp only
    split
    · exact .refl s
    · exact (quiet_stage _ _ _).trans (quiet_markStale _ _)
  · exact .refl s

theorem quiet_restore (s : State) : Quiet s s.restore := Quiet.foldl quiet_restoreOne _ s

theorem quiet_pass (s : State) : Quiet s s.pass := by
  have h : Quiet s { s with alloc := { s.alloc with passDue := false } } := quiet_alloc s _ rfl rfl rfl rfl rfl
  unfold State.pass
  dsimp only
  split
  · exact h.trans (quiet_walk _ _)
  · exact (h.trans (quiet_walk _ _)).trans (quiet_restore _)

/-! ### The parts of a boundary -/

theorem quiet_recordBoundary (s : State) (i : RecIdx) : Quiet s (s.recordBoundary i) := by
  unfold State.recordBoundary
  split
  · rename_i t g h
    have h1 : Quiet s (s.become i (.granted t (g.boundary t).1)) := quiet_become s i _ (by simp [h])
    dsimp only
    split
    · exact h1.trans (quiet_enterRetiring _ _ _)
    · exact h1
  · rename_i h
    split
    · exact quiet_rampCut _ _
    · exact quiet_setLife s i _ (by simp [h])
  · exact .refl s

theorem quiet_bayBoundary (s : State) (b : BayIdx) : Quiet s (s.bayBoundary b) := by
  have h1 : Quiet s (s.modBay b Bay.endGraces) := quiet_modBay s b _ fun _ => rfl
  unfold State.bayBoundary
  dsimp only
  refine Quiet.trans ?_ (quiet_modBay _ b _ fun y => y.others_setLimit _)
  split
  · exact h1.trans (quiet_recordBoundary _ _)
  · exact h1

theorem quiet_countStrikeWindow (s : State) (b : BayIdx) : Quiet s (s.countStrikeWindow b) := by
  unfold State.countStrikeWindow
  split
  · exact .refl s
  · split
    · rename_i h
      split <;> exact quiet_setLife s _ _ (by simp [h])
    · exact .refl s

theorem quiet_chargeRecord (s : State) (i : RecIdx) (m : Nat) : Quiet s (s.chargeRecord i m) := by
  unfold State.chargeRecord
  split
  · rename_i h
    exact quiet_setLife s _ _ (by simp [h])
  · rename_i h
    exact quiet_setLife s _ _ (by simp [h])
  · exact .refl s

/-- A frame from its fields, most of which hold by definition. -/
theorem Steady.of {s t : State} (pool : t.pool = s.pool := by rfl) (thermal : t.thermal = s.thermal := by rfl)
    (clock : t.clock = s.clock := by rfl) (link : t.link = s.link := by rfl) (params : t.params = s.params := by rfl)
    (reply : t.reply = s.reply := by rfl) (pending : t.pending = s.pending := by rfl)
    (alloc : t.alloc = s.alloc := by rfl) (enables : t.attention.enables = s.attention.enables := by rfl) : Steady s t :=
  { thermal, clock, link, params, reply, pending, enables, ceiling := by rw [alloc], holdPort := by rw [alloc],
    holdClock := by rw [alloc], freeList := by rw [pool], generation := fun i => by rw [State.record_congr pool],
    free := fun i => by rw [State.life_congr pool], opState := by rw [alloc], effCeiling := by rw [alloc] }

theorem steady_bays (s : State) (v : Vector Bay 16) : Steady s { s with bays := v } := .of

theorem steady_timer (s : State) (m : Timer) : Steady s { s with timer := m } := .of

theorem steady_closeWindowLeft (s : State) (n : Nat) : Steady s { s with closeWindowLeft := n } := .of

theorem steady_sampler (s : State) (m : Sampler) : Steady s { s with sampler := m } := .of

theorem steady_foldCharge (s : State) (b : BayIdx) : Steady s (s.foldCharge b) := by
  unfold State.foldCharge
  dsimp only
  refine Steady.trans ?_ (steady_bays _ _)
  split
  · split
    · exact .refl s
    · split
      · exact (quiet_chargeRecord _ _ _).toSteady
      · exact .refl s
  · exact .refl s

theorem steady_countCloseWindow (s : State) : Steady s s.countCloseWindow := by
  unfold State.countCloseWindow
  split
  · exact ((steady_closeWindowLeft s s.params.closeWindow).trans (steady_bays _ _)).trans (quiet_trigger _).toSteady
  · exact steady_closeWindowLeft s _

theorem steady_countSettle (s : State) (b : BayIdx) : Steady s (s.countSettle b) := by
  unfold State.countSettle
  split
  · split
    · exact (steady_bays s _).trans (steady_sampler _ _)
    · exact steady_bays s _
  · exact .refl s

/-- One part of a boundary leaves the other blocks, the operating state and the effective ceiling alone. -/
theorem steady_takePart (s : State) (p : BoundaryPart) : Steady s (s.takePart p) := by
  cases p
  · exact (quiet_bayBoundary _ _).toSteady
  · exact (quiet_countStrikeWindow _ _).toSteady
  · exact steady_foldCharge _ _
  · exact steady_countCloseWindow _
  · exact steady_countSettle _ _

/-- No part of a boundary moves the Period Timer. -/
theorem timer_takePart (s : State) (p : BoundaryPart) : (s.takePart p).timer = s.timer := by
  cases p
  · exact (quiet_bayBoundary _ _).timer
  · exact (quiet_countStrikeWindow _ _).timer
  · rename_i b
    unfold State.takePart State.foldCharge
    dsimp only
    rw [State.timer_modBay]
    split
    · split
      · rfl
      · split
        · exact (quiet_chargeRecord _ _ _).timer
        · rfl
    · rfl
  · unfold State.takePart State.countCloseWindow
    dsimp only
    split
    · rw [(quiet_trigger _).timer]
      rfl
    · rfl
  · unfold State.takePart State.countSettle
    dsimp only
    split
    · split <;> rfl
    · rfl

theorem steady_takeParts (s : State) (l : List BoundaryPart) : Steady s (s.takeParts l) :=
  Steady.foldl steady_takePart l s

theorem timer_takeParts : ∀ (l : List BoundaryPart) (s : State), (s.takeParts l).timer = s.timer
  | [], _ => rfl
  | p :: l, s => (timer_takeParts l (s.takePart p)).trans (timer_takePart s p)

theorem steady_finishBoundary (s : State) : Steady s s.finishBoundary :=
  (steady_timer s _).trans (steady_takeParts _ _)

/-- Finishing a boundary leaves nothing outstanding and moves nothing else of the timer. -/
theorem timer_finishBoundary (s : State) : s.finishBoundary.timer = { s.timer with outstanding := [] } :=
  timer_takeParts _ _

/-- With nothing outstanding there is nothing to finish. -/
theorem finishBoundary_eq (s : State) (h : s.timer.outstanding = []) : s.finishBoundary = s := by
  unfold State.finishBoundary
  rw [h]
  show { s with timer := { s.timer with outstanding := [] } } = s
  rw [← h]

theorem steady_takeOutstanding (s : State) (p : BoundaryPart) : Steady s (s.takeOutstanding p) :=
  (steady_timer s _).trans (steady_takePart _ _)

theorem steady_boundary (s : State) (later : List BoundaryPart) : Steady s (s.boundary later) :=
  (steady_timer s _).trans (steady_takeParts _ _)

theorem timer_boundary (s : State) (later : List BoundaryPart) :
    (s.boundary later).timer = s.timer.advance later (Vector.ofFn s.heldHandle) :=
  timer_takeParts _ _

end Sys2Proof.Machine
end

