-- ==== Sys2Proof/Laws/Ops.lean ====
section
/-!
SUPPORT. What each shared operation on records, loads and bay outputs does, said once per operation.
-/
namespace Sys2Proof.Machine

/-! ### Triggers and the reclaiming condition -/

/-- A trigger leaves one pass due in RUNNING outside reclaiming and nothing otherwise (R39). -/
theorem State.trigger_eq (s : State) :
    s.trigger = { s with alloc := { s.alloc with
      passDue := s.alloc.passDue || (s.alloc.opState == .running && !s.alloc.reclaiming) } } := by
  unfold State.trigger
  split
  · rename_i h
    simp [h.1, h.2]
  · rename_i h
    have : (s.alloc.opState == .running && !s.alloc.reclaiming) = false := by
      cases hr : s.alloc.reclaiming <;> simp_all
    simp [this]

@[simp] theorem State.pool_trigger (s : State) : s.trigger.pool = s.pool := by rw [State.trigger_eq]
@[simp] theorem State.bays_trigger (s : State) : s.trigger.bays = s.bays := by rw [State.trigger_eq]
@[simp] theorem State.attention_trigger (s : State) : s.trigger.attention = s.attention := by rw [State.trigger_eq]
@[simp] theorem State.loads_trigger (s : State) : s.trigger.alloc.loads = s.alloc.loads := by rw [State.trigger_eq]
@[simp] theorem State.waitQueue_trigger (s : State) : s.trigger.alloc.waitQueue = s.alloc.waitQueue := by rw [State.trigger_eq]
@[simp] theorem State.grantOrder_trigger (s : State) : s.trigger.alloc.grantOrder = s.alloc.grantOrder := by rw [State.trigger_eq]
@[simp] theorem State.reclaiming_trigger (s : State) : s.trigger.alloc.reclaiming = s.alloc.reclaiming := by rw [State.trigger_eq]
@[simp] theorem State.opState_trigger (s : State) : s.trigger.alloc.opState = s.alloc.opState := by rw [State.trigger_eq]
@[simp] theorem State.effCeiling_trigger (s : State) : s.trigger.alloc.effCeiling = s.alloc.effCeiling := by rw [State.trigger_eq]

/-- The condition of R134 read off the loads. -/
theorem Allocator.fits_iff (a : Allocator) : a.fits = true ↔ ∀ p : Position, a.loads.get p ≤ a.effCeiling := by
  simp only [Allocator.fits, List.all_eq_true, decide_eq_true_eq, Vector.mem_toList_iff]
  constructor
  · intro h p
    exact h _ (Vector.getElem_mem _)
  · intro h l hl
    obtain ⟨i, hi, rfl⟩ := Vector.getElem_of_mem hl
    exact h ⟨i, hi⟩

@[simp] theorem State.pool_evaluate (s : State) : s.evaluate.pool = s.pool := by
  unfold State.evaluate
  split <;> simp

@[simp] theorem State.bays_evaluate (s : State) : s.evaluate.bays = s.bays := by
  unfold State.evaluate
  split <;> simp

@[simp] theorem State.loads_evaluate (s : State) : s.evaluate.alloc.loads = s.alloc.loads := by
  unfold State.evaluate
  split <;> simp

@[simp] theorem State.waitQueue_evaluate (s : State) : s.evaluate.alloc.waitQueue = s.alloc.waitQueue := by
  unfold State.evaluate
  split <;> simp

@[simp] theorem State.grantOrder_evaluate (s : State) : s.evaluate.alloc.grantOrder = s.alloc.grantOrder := by
  unfold State.evaluate
  split <;> simp

@[simp] theorem State.effCeiling_evaluate (s : State) : s.evaluate.alloc.effCeiling = s.alloc.effCeiling := (quiet_evaluate s).effCeiling

/-- An evaluation ends reclaiming when every load fits and changes the condition in no other way (R134, R140). -/
theorem State.reclaiming_evaluate (s : State) : s.evaluate.alloc.reclaiming = (s.alloc.reclaiming && !s.alloc.fits) := by
  unfold State.evaluate
  split
  · rename_i h
    simp [h.1, h.2]
  · rename_i h
    cases hr : s.alloc.reclaiming <;> simp_all

/-! ### Load changes -/

@[simp] theorem State.pool_contribute (s : State) (t : Terms) (m n : Nat) : (s.contribute t m n).pool = s.pool := by
  unfold State.contribute
  split
  · rfl
  · dsimp only
    split <;> simp

@[simp] theorem State.bays_contribute (s : State) (t : Terms) (m n : Nat) : (s.contribute t m n).bays = s.bays := by
  unfold State.contribute
  split
  · rfl
  · dsimp only
    split <;> simp

@[simp] theorem State.waitQueue_contribute (s : State) (t : Terms) (m n : Nat) :
    (s.contribute t m n).alloc.waitQueue = s.alloc.waitQueue := by
  unfold State.contribute
  split
  · rfl
  · dsimp only
    split <;> simp

@[simp] theorem State.grantOrder_contribute (s : State) (t : Terms) (m n : Nat) :
    (s.contribute t m n).alloc.grantOrder = s.alloc.grantOrder := by
  unfold State.contribute
  split
  · rfl
  · dsimp only
    split <;> simp

/-- The load after a reported change of a contribution (R30). -/
theorem State.load_contribute (s : State) (t : Terms) (m n : Nat) (p : Position) :
    (s.contribute t m n).load p = if t.onAt p then s.load p + n - m else s.load p := by
  unfold State.contribute
  split
  · subst_vars
    simp
  · have h : { s with alloc := s.alloc.shift t m n }.evaluate.load p = if t.onAt p then s.load p + n - m else s.load p := by
      simp only [State.load, State.loads_evaluate, Allocator.loads_shift]
    dsimp only
    split
    · simpa only [State.load, State.loads_trigger] using h
    · exact h

/-- The reclaiming condition after a reported change: a change of a contribution can end reclaiming and never begins it (R134). -/
theorem State.reclaiming_contribute (s : State) (t : Terms) (m n : Nat) (h : m ≠ n) :
    (s.contribute t m n).alloc.reclaiming = (s.alloc.reclaiming && !(s.alloc.shift t m n).fits) := by
  unfold State.contribute
  rw [if_neg h]
  dsimp only
  split <;> simp [State.reclaiming_evaluate]

/-! ### A record's new life -/

theorem State.life_become (s : State) (i : RecIdx) (l : Life) (j : RecIdx) :
    (s.become i l).life j = if j = i then l else s.life j := by
  unfold State.become
  split
  · rw [State.life_congr (State.pool_contribute ..), State.life_setLife]
  · exact State.life_setLife ..

@[simp] theorem State.bays_become (s : State) (i : RecIdx) (l : Life) : (s.become i l).bays = s.bays := by
  unfold State.become
  split <;> simp

@[simp] theorem State.waitQueue_become (s : State) (i : RecIdx) (l : Life) :
    (s.become i l).alloc.waitQueue = s.alloc.waitQueue := by
  unfold State.become
  split <;> simp

@[simp] theorem State.grantOrder_become (s : State) (i : RecIdx) (l : Life) :
    (s.become i l).alloc.grantOrder = s.alloc.grantOrder := by
  unfold State.become
  split <;> simp

@[simp] theorem State.edit_become (s : State) (i : RecIdx) (l : Life) : (s.become i l).pool.edit = s.pool.edit := by
  unfold State.become
  split <;> simp

/-- The load of each on position changes by the change of the record's contribution (R30). -/
theorem State.load_become (s : State) (i : RecIdx) (l : Life) (t : Terms) (h : l.terms? = some t) (p : Position) :
    (s.become i l).load p =
      if t.onAt p then s.load p + l.contribution - (s.life i).contribution else s.load p := by
  simp only [State.become, h]
  rw [State.load_contribute]
  rfl

/-! ### Edit window -/

@[simp] theorem State.alloc_markStale (s : State) (i : RecIdx) : (s.markStale i).alloc = s.alloc := by
  unfold State.markStale
  split
  · split <;> rfl
  · rfl

@[simp] theorem State.bays_markStale (s : State) (i : RecIdx) : (s.markStale i).bays = s.bays := by
  unfold State.markStale
  split
  · split <;> rfl
  · rfl

@[simp] theorem State.record_markStale (s : State) (i j : RecIdx) : (s.markStale i).record j = s.record j := by
  unfold State.markStale
  split
  · split <;> rfl
  · rfl

@[simp] theorem State.life_markStale (s : State) (i j : RecIdx) : (s.markStale i).life j = s.life j := by
  rw [State.life, State.record_markStale]
  rfl

/-- A window on the record is STALE after a change of the record; any other window is as it was (R179). -/
theorem State.edit_markStale (s : State) (i : RecIdx) :
    (s.markStale i).pool.edit = s.pool.edit.map fun w => { w with stale := w.stale || decide (w.handle % 64 = i.val) } := by
  unfold State.markStale
  split
  · rename_i w hw
    split
    · rename_i h
      simp [hw, h.1, State.raise]
    · rename_i h
      rw [hw]
      cases hs : w.stale
      · have : ¬ w.handle % 64 = i.val := fun e => h ⟨e, hs⟩
        obtain ⟨handle, copy, changed, stale⟩ := w
        simp_all
      · obtain ⟨handle, copy, changed, stale⟩ := w
        simp_all
  · rename_i hn
    simp [hn]

/-! ### Leaving the bay, SPENT and RETIRING -/

theorem State.life_leaveBay (s : State) (i : RecIdx) (b : BayIdx) (j : RecIdx) : (s.leaveBay i b).life j = s.life j := by
  unfold State.leaveBay
  rw [State.life_markStale]
  rfl

@[simp] theorem State.alloc_leaveBay (s : State) (i : RecIdx) (b : BayIdx) : (s.leaveBay i b).alloc = (s.unlist i).alloc := by
  unfold State.leaveBay
  rw [State.alloc_markStale]
  rfl

/-- What entry into SPENT does to the bays (R7, R9, R19, R74). -/
theorem State.bay_leaveBay (s : State) (i : RecIdx) (b c : BayIdx) :
    (s.leaveBay i b).bay c =
      if c = b then
        { (s.bay b).openEnable with
          record := none, lastSpent := some (s.handle i), events := (s.bay b).openEnable.events.add .spent }
      else s.bay c := by
  unfold State.leaveBay
  rw [State.bay_congr (State.bays_markStale ..), State.bay_addEvent, State.bay_modBay_self, State.bay_modBay]
  split <;> rfl

/-- Entry into SPENT of a live record (R19). -/
theorem State.enterSpent_live (s : State) (i : RecIdx) (c : EndCause) (f : Bool) (t : Terms) (h : (s.life i).liveTerms? = some t) :
    s.enterSpent i c f = (s.become i (.spent t c f)).leaveBay i t.bay := by
  unfold State.enterSpent
  split <;> simp_all [Life.liveTerms?]

/-- A claim of an end on a record that is not live is dropped (R10). -/
theorem State.enterSpent_dead (s : State) (i : RecIdx) (c : EndCause) (f : Bool) (h : (s.life i).liveTerms? = none) :
    s.enterSpent i c f = s := by
  unfold State.enterSpent
  split <;> simp_all [Life.liveTerms?]

/-- Entry into RETIRING of a GRANTED record (R15). -/
theorem State.enterRetiring_granted (s : State) (i : RecIdx) (c : EndCause) (t : Terms) (g : Grant) (h : s.life i = .granted t g) :
    s.enterRetiring i c =
      (((s.become i (.retiring t g.active c s.params.retireTimeout)).unlist i).modBay t.bay fun y => y.setLimit 0).markStale i := by
  simp only [State.enterRetiring, h]

/-- A claim of RETIRING on a record that is not GRANTED is dropped (R10). -/
theorem State.enterRetiring_other (s : State) (i : RecIdx) (c : EndCause) (h : (s.life i).isGranted = false) :
    s.enterRetiring i c = s := by
  unfold State.enterRetiring
  split
  · simp_all [Life.isGranted]
  · rfl

theorem State.life_enterSpent (s : State) (i : RecIdx) (c : EndCause) (f : Bool) (t : Terms) (h : (s.life i).liveTerms? = some t)
    (j : RecIdx) : (s.enterSpent i c f).life j = if j = i then .spent t c f else s.life j := by
  rw [State.enterSpent_live s i c f t h, State.life_leaveBay, State.life_become]

theorem State.life_enterRetiring (s : State) (i : RecIdx) (c : EndCause) (t : Terms) (g : Grant) (h : s.life i = .granted t g)
    (j : RecIdx) :
    (s.enterRetiring i c).life j = if j = i then .retiring t g.active c s.params.retireTimeout else s.life j := by
  rw [State.enterRetiring_granted s i c t g h, State.life_markStale]
  show (s.become i _).life j = _
  exact State.life_become ..

/-- A staged grant takes a value, and the load follows (R30). -/
theorem State.stage_granted (s : State) (i : RecIdx) (v : Nat) (t : Terms) (g : Grant) (h : s.life i = .granted t g) :
    s.stage i v = s.become i (.granted t { g with staged := v }) := by
  simp only [State.stage, h]

/-! ### Bay outputs -/

/-- The limit, the duty and the grace a bay has after it takes a limit value (R78, R79, R82, R84). -/
theorem Bay.setLimit_spec (y : Bay) (n : Nat) :
    (y.setLimit n).limit = n ∧
      (y.setLimit n).stagedDuty = (if n = y.limit then y.stagedDuty else n * 1000 / 630) ∧
      (y.setLimit n).decreaseGrace =
        (if n < y.limit ∧ y.enable = .closed then some (y.decreaseGrace.getD y.limit) else y.decreaseGrace) := by
  unfold Bay.setLimit
  split
  · rename_i h
    subst h
    simp
  · rename_i h
    simp [duty]

/-- An opening of a CLOSED enable, and of an OPEN one (R74). -/
theorem Bay.openEnable_spec (y : Bay) :
    y.openEnable.enable = .opened ∧ y.openEnable.record = y.record ∧ y.openEnable.blockCause = y.blockCause ∧
      y.openEnable.closeCount = y.closeCount ∧ (y.enable = .opened → y.openEnable = y) ∧
      (y.enable = .closed →
        y.openEnable = { y with enable := .opened, limit := 0, stagedDuty := 0, decreaseGrace := none, strayGrace := true }) := by
  unfold Bay.openEnable
  cases h : y.enable <;> simp [h]

/-! ### Sampler requests -/

/-- A channel is in the set after a raise when it was raised or there already (R96). -/
theorem mem_addChannel (c d : Channel) (l : List Channel) : d ∈ addChannel c l ↔ d = c ∨ d ∈ l := by
  simp [addChannel, allChannels, List.mem_filter]

/-- The set stays in ascending order without repeats (R94, R96). -/
theorem sorted_addChannel (c : Channel) (l : List Channel) : (addChannel c l).Pairwise (· < ·) :=
  List.Pairwise.filter _ (List.pairwise_lt_finRange 18)

/-! ### The wait queue -/

/-- A record joins the queue and the others keep their order (R35). -/
theorem insertAfterLast_perm (p : RecIdx → Bool) (i : RecIdx) : ∀ l, (insertAfterLast p i l).Perm (i :: l)
  | [] => .refl _
  | x :: xs => by
    unfold insertAfterLast
    split
    · exact ((insertAfterLast_perm p i xs).cons x).trans (.swap i x xs)
    · exact .refl _

/-- No entry after the inserted one satisfies the condition (R35). -/
theorem insertAfterLast_eq (p : RecIdx → Bool) (i : RecIdx) :
    ∀ l, ∃ l1 l2, l = l1 ++ l2 ∧ insertAfterLast p i l = l1 ++ i :: l2 ∧ (∀ x ∈ l2, p x = false) ∧ ∀ x ∈ l1.getLast?, p x = true
  | [] => ⟨[], [], rfl, rfl, by simp, by simp⟩
  | x :: xs => by
    unfold insertAfterLast
    split
    · rename_i h
      obtain ⟨l1, l2, e, e', h2, h1⟩ := insertAfterLast_eq p i xs
      refine ⟨x :: l1, l2, by simp [e], by simp [e'], h2, ?_⟩
      cases l1 with
      | nil =>
        simp only [List.nil_append] at e
        subst e
        have hx : p x = true := by
          rw [List.any_cons, Bool.or_eq_true] at h
          refine h.resolve_right fun hn => ?_
          obtain ⟨y, hy, hp⟩ := List.any_eq_true.mp hn
          rw [h2 y hy] at hp
          exact Bool.false_ne_true hp
        simpa using hx
      | cons y ys => simpa using h1
    · rename_i h
      refine ⟨[], x :: xs, rfl, rfl, fun y hy => ?_, by simp⟩
      have hn := List.any_eq_false.mp (Bool.eq_false_iff.mpr h) y hy
      exact Bool.eq_false_iff.mpr hn

/-! ### Room -/

/-- Room is at most the headroom of every position in which the terms are on, and at most the ceiling (R34). -/
theorem roomUnder_le (ceiling : Nat) (t : Terms) (load : Position → Nat) (p : Position) (h : t.onAt p = true) :
    roomUnder ceiling t load ≤ ceiling - load p := by
  have key : ∀ (l : List Position) (m : Nat),
      l.foldl (fun m p => if t.onAt p then min m (ceiling - load p) else m) m ≤ m ∧
        (p ∈ l → l.foldl (fun m p => if t.onAt p then min m (ceiling - load p) else m) m ≤ ceiling - load p) := by
    intro l
    induction l with
    | nil => intro m; simp
    | cons q l ih =>
      intro m
      simp only [List.foldl_cons]
      obtain ⟨h1, h2⟩ := ih (if t.onAt q then min m (ceiling - load q) else m)
      refine ⟨h1.trans ?_, fun hp => ?_⟩
      · split
        · exact min_le_left _ _
        · exact le_refl _
      · rcases List.mem_cons.mp hp with rfl | hp
        · refine h1.trans ?_
          rw [if_pos h]
          exact min_le_right _ _
        · exact h2 hp
  exact (key allPositions ceiling).2 (List.mem_finRange p)

end Sys2Proof.Machine
end

