-- ==== Sys2Proof/Laws/Entries.lean ====
section
/-!
SUPPORT. The closed form of a load decrease, and what entry into SPENT, into RETIRING and into TRIP does, one theorem each.
-/
namespace Sys2Proof.Machine

/-! ### A load decrease -/

/-- A load decrease in one record update: the loads follow, reclaiming ends when every load fits, which raises RECLAIM, and one pass is
due in RUNNING outside reclaiming (R30, R39, R134, R140). -/
theorem State.contribute_fall (s : State) (t : Terms) (m n : Nat) (h : n < m) :
    s.contribute t m n =
      let a := s.alloc.shift t m n
      { s with
        attention := { s.attention with
          flags := if s.alloc.reclaiming && a.fits then s.attention.flags.set 20 .raisedUnseen else s.attention.flags }
        alloc := { a with
          reclaiming := s.alloc.reclaiming && !a.fits
          passDue := s.alloc.passDue || (s.alloc.opState == .running && !(s.alloc.reclaiming && !a.fits)) } } := by
  have hne : m ≠ n := by omega
  have h1 : (s.alloc.shift t m n).opState = s.alloc.opState := by simp
  have h2 : (s.alloc.shift t m n).reclaiming = s.alloc.reclaiming := by simp
  have h3 : (s.alloc.shift t m n).passDue = s.alloc.passDue := by simp
  unfold State.contribute
  rw [if_neg hne, if_pos h]
  generalize s.alloc.shift t m n = a at *
  dsimp only
  simp only [State.trigger_eq, State.evaluate]
  cases hr : s.alloc.reclaiming <;> cases hf : a.fits <;> simp [h1, h2, h3, hr, State.raise, flagReclaim]

/-- A contribution that stays the same changes nothing. -/
theorem State.contribute_same (s : State) (t : Terms) (m : Nat) : s.contribute t m m = s := by
  unfold State.contribute
  simp

/-! ### A window overtaken -/

/-- A change of a record raises EDIT_STALE exactly when it overtakes a window on it (R179). -/
theorem State.attention_markStale (s : State) (i : RecIdx) :
    (s.markStale i).attention = { s.attention with
      flags := if s.pool.edit.any (fun w => w.handle % 64 == i.val && !w.stale) then s.attention.flags.set 21 .raisedUnseen
        else s.attention.flags } := by
  unfold State.markStale
  split
  · rename_i w hw
    rw [hw]
    by_cases h : w.handle % 64 = i.val ∧ w.stale = false
    · simp [h.1, h.2, State.raise, flagEditStale]
    · rw [if_neg h]
      have : (w.handle % 64 == i.val && !w.stale) = false := by
        cases hs : w.stale <;> simp_all
      simp [this]
  · rename_i hn
    simp [hn]

/-- A change of a record in one record update (R179). -/
theorem State.markStale_eq (s : State) (i : RecIdx) :
    s.markStale i = { s with
      pool := { s.pool with edit := s.pool.edit.map fun w => { w with stale := w.stale || decide (w.handle % 64 = i.val) } }
      attention := (s.markStale i).attention } := by
  have h := State.edit_markStale s i
  rw [← h]
  unfold State.markStale
  split
  · split <;> rfl
  · rfl

/-! ### A fall of one record's contribution -/

/-- A record takes a life of the same pattern with a lower contribution, or the same (R30). -/
theorem State.become_fall (s : State) (i : RecIdx) (l : Life) (t : Terms) (ht : l.terms? = some t)
    (h : l.contribution ≤ (s.life i).contribution) :
    s.become i l = s.setLife i l ∧ l.contribution = (s.life i).contribution ∨
      l.contribution < (s.life i).contribution ∧
        s.become i l =
          let a := s.alloc.shift t (s.life i).contribution l.contribution
          { s.setLife i l with
            attention := { s.attention with
              flags := if s.alloc.reclaiming && a.fits then s.attention.flags.set 20 .raisedUnseen else s.attention.flags }
            alloc := { a with
              reclaiming := s.alloc.reclaiming && !a.fits
              passDue := s.alloc.passDue || (s.alloc.opState == .running && !(s.alloc.reclaiming && !a.fits)) } } := by
  simp only [State.become, ht]
  rcases h.lt_or_eq with h | h
  · exact .inr ⟨h, by rw [State.contribute_fall _ _ _ _ h]; rfl⟩
  · exact .inl ⟨by rw [h, State.contribute_same], h⟩

/-- What a fall of one record's contribution does, field by field; the bays, the lists and the window stand. -/
structure Falls (s u : State) (i : RecIdx) (t : Terms) (before after : Nat) (l : Life) : Prop where
  loads : ∀ p, u.load p = if t.onAt p then s.load p + after - before else s.load p
  reclaiming : u.alloc.reclaiming = true ↔ s.alloc.reclaiming = true ∧ (before = after ∨ ∃ p, s.alloc.effCeiling < u.load p)
  reclaimFlag : u.attention.flags.get flagReclaim =
    if s.alloc.reclaiming = true ∧ u.alloc.reclaiming = false then .raisedUnseen else s.attention.flags.get flagReclaim
  otherFlags : ∀ f, f ≠ flagReclaim → u.attention.flags.get f = s.attention.flags.get f
  passDue : u.alloc.passDue = (s.alloc.passDue || (decide (after < before) && s.alloc.opState == .running && !u.alloc.reclaiming))
  frame : u = { s.setLife i l with
    attention := { s.attention with flags := u.attention.flags }
    alloc := { s.alloc with loads := u.alloc.loads, reclaiming := u.alloc.reclaiming, passDue := u.alloc.passDue } }

theorem get_flags_set (v : Vector FlagState 22) (n : Nat) (h : n < 22) (x : FlagState) (f : Flag) :
    (v.set n x h).get f = if f.val = n then x else v.get f := by
  simp only [Vector.get_eq_getElem, Vector.getElem_set, eq_comm]

theorem State.falls_become (s : State) (i : RecIdx) (l : Life) (t : Terms) (ht : l.terms? = some t)
    (h : l.contribution ≤ (s.life i).contribution) : Falls s (s.become i l) i t (s.life i).contribution l.contribution l := by
  have hl := State.load_become s i l t ht
  rcases State.become_fall s i l t ht h with ⟨e, hc⟩ | ⟨hlt, e⟩
  · rw [e] at hl ⊢
    exact ⟨hl, by simp [hc], by simp, fun _ _ => rfl, by simp [hc], rfl⟩
  · have hf := Allocator.fits_iff (s.alloc.shift t (s.life i).contribution l.contribution)
    have hg : (∃ p, s.alloc.effCeiling < (s.become i l).load p) ↔
        (s.alloc.shift t (s.life i).contribution l.contribution).fits = false := by
      rw [← Bool.not_eq_true, hf]
      push Not
      simp only [Allocator.effCeiling_shift]
      rw [e]
      rfl
    have hne : (s.life i).contribution ≠ l.contribution := by omega
    refine ⟨hl, ?_, ?_, ?_, ?_, ?_⟩
    · rw [hg, e]
      simp [hne]
    · rw [e]
      cases hr : s.alloc.reclaiming <;>
        cases hF : (s.alloc.shift t (s.life i).contribution l.contribution).fits <;> simp [hF, get_flags_set, flagReclaim]
    · intro f hne'
      rw [e]
      have : f.val ≠ 20 := fun hh => hne' (Fin.ext hh)
      dsimp only
      split
      · rw [get_flags_set, if_neg this]
      · rfl
    · rw [e]
      simp [hlt]
    · rw [e]
      simp [Allocator.shift]

/-! ### The three entries -/

theorem get_flags_raise (s : State) (f g : Flag) :
    (s.raise f).attention.flags.get g = if g = f then .raisedUnseen else s.attention.flags.get g := by
  unfold State.raise
  dsimp only
  rw [get_flags_set]
  simp only [Fin.ext_iff]

theorem get_flags_addEvent (s : State) (b : BayIdx) (e : BayEvent) (g : Flag) :
    (s.addEvent b e).attention.flags.get g = if g = bayFlag b then .raisedUnseen else s.attention.flags.get g :=
  get_flags_raise _ _ _

theorem get_flags_markStale (s : State) (i : RecIdx) (g : Flag) :
    (s.markStale i).attention.flags.get g =
      if g = flagEditStale ∧ s.pool.edit.any (fun w => w.handle % 64 == i.val && !w.stale) = true then .raisedUnseen
      else s.attention.flags.get g := by
  rw [State.attention_markStale]
  dsimp only
  split
  · rename_i h
    rw [get_flags_set]
    simp [h, Fin.ext_iff, flagEditStale]
  · rename_i h
    simp [h]

theorem bayFlag_ne (b : BayIdx) (f : Flag) (h : 16 ≤ f.val) : f ≠ bayFlag b := by
  intro e
  have : f.val = b.val := by rw [e]; rfl
  omega

theorem edit_leaveBay (s : State) (i : RecIdx) (b : BayIdx) :
    (s.leaveBay i b).pool.edit = s.pool.edit.map fun w => { w with stale := w.stale || decide (w.handle % 64 = i.val) } := by
  unfold State.leaveBay
  rw [State.edit_markStale]
  rfl

theorem get_flags_leaveBay (s : State) (i : RecIdx) (b : BayIdx) (f : Flag) :
    (s.leaveBay i b).attention.flags.get f =
      if f = flagEditStale ∧ s.pool.edit.any (fun w => w.handle % 64 == i.val && !w.stale) = true then .raisedUnseen
      else if f = bayFlag b then .raisedUnseen else s.attention.flags.get f := by
  unfold State.leaveBay
  rw [get_flags_markStale, get_flags_addEvent]
  rfl

/-- The frame of a quiet operation as one record update. -/
theorem Quiet.frame {s t : State} (Q : Quiet s t) :
    t = { s with
      pool := t.pool, bays := t.bays, attention := { s.attention with flags := t.attention.flags },
      alloc := { s.alloc with
        loads := t.alloc.loads, waitQueue := t.alloc.waitQueue, grantOrder := t.alloc.grantOrder, reclaiming := t.alloc.reclaiming,
        passDue := t.alloc.passDue } } := by
  dsimp only
  rw [← Q.timer, ← Q.closeWindowLeft, ← Q.sampler, ← Q.thermal, ← Q.clock, ← Q.link, ← Q.params, ← Q.reply, ← Q.pending, ← Q.enables,
    ← Q.ceiling, ← Q.effCeiling, ← Q.opState, ← Q.holdPort, ← Q.holdClock]

/-- Entry into SPENT of a live record (R19). -/
theorem State.entersSpent (s : State) (i : RecIdx) (c : EndCause) (f : Bool) (u : Terms) (h : (s.life i).liveTerms? = some u) :
    EntersSpent s (s.enterSpent i c f) i u c f := by
  have hu : (Life.spent u c f).terms? = some u := rfl
  have F := State.falls_become s i (.spent u c f) u hu (Nat.zero_le _)
  have hlist : ((s.become i (.spent u c f)).leaveBay i u.bay).alloc = ((s.become i (.spent u c f)).unlist i).alloc :=
    State.alloc_leaveBay ..
  have hb : ∀ b, ((s.become i (.spent u c f)).leaveBay i u.bay).bay b =
      if b = u.bay then
        { (s.bay u.bay).openEnable with
          record := none, lastSpent := some (s.handle i), events := (s.bay u.bay).openEnable.events.add .spent }
      else s.bay b := by
    intro b
    rw [State.bay_leaveBay]
    have e : ∀ b, (s.become i (.spent u c f)).bay b = s.bay b := fun b => State.bay_congr (State.bays_become ..) b
    have e2 : (s.become i (.spent u c f)).handle i = s.handle i :=
      (quiet_become s i _ (by cases hl : s.life i <;> simp_all [Life.liveTerms?])).handle i
    rw [e, e, e2]
  have hterms : (s.life i).terms? = some u := by
    cases hl : s.life i <;> simp_all [Life.liveTerms?, Life.terms?]
  have Q := quiet_enterSpent s i c f
  obtain ⟨o1, o2, o3, o4, o5, o6⟩ := Bay.openEnable_spec (s.bay u.bay)
  have hev : (s.bay u.bay).openEnable.events = (s.bay u.bay).events := by
    unfold Bay.openEnable
    split <;> rfl
  have hl := State.life_enterSpent s i c f u h
  rw [State.enterSpent_live s i c f u h] at Q hl ⊢
  have hrec : ((s.become i (.spent u c f)).leaveBay i u.bay).alloc.reclaiming = (s.become i (.spent u c f)).alloc.reclaiming := by
    rw [hlist]
    rfl
  have hload : ∀ p, ((s.become i (.spent u c f)).leaveBay i u.bay).load p = (s.become i (.spent u c f)).load p := by
    intro p
    simp only [State.load, hlist]
    rfl
  have hpd : ((s.become i (.spent u c f)).leaveBay i u.bay).alloc.passDue = (s.become i (.spent u c f)).alloc.passDue := by
    rw [hlist]
    rfl
  have hzero : (Life.spent u c f).contribution = 0 := rfl
  refine ⟨?_, ?_, Q.generation, Q.freeList, ?_, ?_, ?_, ?_, ?_, ?_, ?_, ?_, ?_, ?_, ?_, ?_, ?_, ?_, ?_, ?_⟩
  · simp [hl]
  · intro j hj
    simp [hl, hj]
  · rw [hlist]
    simp [State.unlist]
  · rw [hlist]
    simp [State.unlist]
  · intro p
    rw [hload, F.loads, Life.loadAt, hterms, hzero]
    dsimp only
    split <;> simp
  · simp only [hrec, hload, F.reclaiming, hzero]
  · rw [get_flags_leaveBay, if_neg (by simp [flagReclaim, flagEditStale]), if_neg (bayFlag_ne _ _ (by decide)), F.reclaimFlag, hrec]
  · rw [hpd, F.passDue, hrec, hzero]
    simp [Nat.pos_iff_ne_zero]
    rfl
  · rw [hb, if_pos rfl]
    exact ⟨rfl, rfl, by rw [hev]; rfl, o1⟩
  · intro hc
    rw [hb, if_pos rfl, o6 hc]
    exact ⟨rfl, rfl, rfl, rfl⟩
  · intro hc
    rw [hb, if_pos rfl, o5 hc]
    rfl
  · rw [hb, if_pos rfl]
    cases hen : (s.bay u.bay).enable
    · rw [o5 hen]
    · rw [o6 hen]
  · intro b hne
    rw [hb, if_neg hne]
  · rw [get_flags_leaveBay, if_neg, if_pos rfl]
    exact fun hh => bayFlag_ne u.bay _ (by decide) hh.1.symm
  · intro g h1 h2 h3
    rw [get_flags_leaveBay, if_neg (fun hh => h3 hh.1), if_neg h1, F.otherFlags g h2]
  · rw [edit_leaveBay, State.edit_become]
  · rw [get_flags_leaveBay, State.edit_become, if_neg (bayFlag_ne u.bay flagEditStale (by decide)),
      F.otherFlags _ (by simp [flagReclaim, flagEditStale])]
    simp
  · exact Q.frame

/-- Entry into RETIRING of a GRANTED record (R15). -/
theorem State.entersRetiring (s : State) (i : RecIdx) (c : EndCause) (u : Terms) (g : Grant) (h : s.life i = .granted u g) :
    EntersRetiring s (s.enterRetiring i c) i u g c := by
  have hc1 : (s.life i).contribution = max g.active g.staged := by rw [h]; rfl
  have hc2 : (Life.retiring u g.active c s.params.retireTimeout).contribution = g.active := rfl
  have F := State.falls_become s i (.retiring u g.active c s.params.retireTimeout) u rfl (by rw [hc1, hc2]; exact le_max_left _ _)
  have Q := quiet_enterRetiring s i c
  have hl := State.life_enterRetiring s i c u g h
  rw [State.enterRetiring_granted s i c u g h] at Q hl ⊢
  rw [hc1, hc2] at F
  generalize ha : s.become i (.retiring u g.active c s.params.retireTimeout) = a at *
  have hwq : a.alloc.waitQueue = s.alloc.waitQueue := by rw [← ha]; exact State.waitQueue_become ..
  have hgo : a.alloc.grantOrder = s.alloc.grantOrder := by rw [← ha]; exact State.grantOrder_become ..
  have hed : a.pool.edit = s.pool.edit := by rw [← ha]; exact State.edit_become ..
  have hbay : ∀ b, a.bay b = s.bay b := fun b => by rw [← ha]; exact State.bay_congr (State.bays_become ..) b
  have halloc : (((a.unlist i).modBay u.bay fun y => y.setLimit 0).markStale i).alloc = (a.unlist i).alloc := by
    rw [State.alloc_markStale]
    rfl
  have hload : ∀ p, (((a.unlist i).modBay u.bay fun y => y.setLimit 0).markStale i).load p = a.load p := by
    intro p
    simp only [State.load, halloc]
    rfl
  have hb : ∀ b, (((a.unlist i).modBay u.bay fun y => y.setLimit 0).markStale i).bay b =
      if b = u.bay then (s.bay u.bay).setLimit 0 else s.bay b := by
    intro b
    rw [State.bay_congr (State.bays_markStale ..), State.bay_modBay, ← hbay u.bay, ← hbay b]
    rfl
  have hfl : ∀ f, (((a.unlist i).modBay u.bay fun y => y.setLimit 0).markStale i).attention.flags.get f =
      if f = flagEditStale ∧ s.pool.edit.any (fun w => w.handle % 64 == i.val && !w.stale) = true then .raisedUnseen
      else a.attention.flags.get f := by
    intro f
    rw [get_flags_markStale, ← hed]
    rfl
  have hrec : (((a.unlist i).modBay u.bay fun y => y.setLimit 0).markStale i).alloc.reclaiming = a.alloc.reclaiming := by
    rw [halloc]
    rfl
  obtain ⟨l1, l2, l3⟩ := (s.bay u.bay).setLimit_spec 0
  refine ⟨?_, ?_, Q.generation, Q.freeList, ?_, ?_, ?_, ?_, ?_, ?_, ?_, ?_, ?_, ?_, ?_, ?_, ?_, Q.frame⟩
  · simp [hl]
  · intro j hj
    simp [hl, hj]
  · rw [halloc]
    simp [State.unlist, hwq]
  · rw [halloc]
    simp [State.unlist, hgo]
  · intro p
    rw [hload, F.loads]
  · simp only [hload, hrec]
    rw [F.reclaiming]
    have : max g.active g.staged = g.active ↔ g.staged ≤ g.active := by omega
    rw [this]
  · rw [hfl, if_neg (by simp [flagReclaim, flagEditStale]), F.reclaimFlag, hrec]
  · have : decide (g.active < max g.active g.staged) = decide (g.active < g.staged) := by
      congr 1
      simp
    rw [hrec, ← this, ← F.passDue, halloc]
    rfl
  · rw [hb, if_pos rfl]
    refine ⟨l1, fun h0 => ?_⟩
    unfold Bay.setLimit
    rw [if_pos h0.symm]
  · intro hpos hcl
    rw [hb, if_pos rfl, l2, l3, if_pos ⟨hpos, hcl⟩, if_neg (by omega)]
    exact ⟨rfl, rfl⟩
  · rw [hb, if_pos rfl]
    unfold Bay.setLimit
    split <;> rfl
  · intro b hne
    rw [hb, if_neg hne]
  · intro f h1 h2
    rw [hfl, if_neg (fun hh => h2 hh.1), F.otherFlags f h1]
  · rw [State.edit_markStale]
    show Option.map _ a.pool.edit = _
    rw [hed]
  · rw [hfl, F.otherFlags _ (by simp [flagReclaim, flagEditStale])]
    simp

/-- What the records of `done` having been taken leaves, on the way into TRIP. -/
structure Tripping (s t : State) (done : List RecIdx) : Prop extends Quiet s t where
  lives : ∀ j, t.life j =
    match s.life j with
    | .granted u g => if j ∈ done then .spent u .trip false else .granted u g
    | .retiring u a c n => if j ∈ done then .spent u .trip false else .retiring u a c n
    | l => l
  hit : ∀ i u, i ∈ done → (s.life i).terms? = some u → (s.life i).holdsLoad = true →
    (t.bay u.bay = { (s.bay u.bay).openEnable with
      record := none, lastSpent := (t.bay u.bay).lastSpent, events := { (s.bay u.bay).events with spent := true } }) ∧
    t.attention.flags.get (bayFlag u.bay) = .raisedUnseen ∧
    ((∀ j v, (s.life j).terms? = some v → (s.life j).holdsLoad = true → v.bay = u.bay → j = i) →
      (t.bay u.bay).lastSpent = some (s.handle i))
  miss : ∀ b, (∀ i u, i ∈ done → (s.life i).terms? = some u → (s.life i).holdsLoad = true → u.bay ≠ b) →
    t.bay b = s.bay b ∧ t.attention.flags.get (bayFlag b) = s.attention.flags.get (bayFlag b)
  flags : ∀ f : Flag, 16 ≤ f.val → f ≠ flagEditStale → t.attention.flags.get f = s.attention.flags.get f
  window : t.pool.edit = s.pool.edit.map fun w =>
    { w with stale := w.stale || done.any fun i => (s.life i).holdsLoad && w.handle % 64 == i.val }
  staleFlag : t.attention.flags.get flagEditStale =
    if s.pool.edit.any (fun w => !w.stale && done.any fun i => (s.life i).holdsLoad && w.handle % 64 == i.val) then .raisedUnseen
    else s.attention.flags.get flagEditStale
  waitQueue : t.alloc.waitQueue = s.alloc.waitQueue.filter fun j => !(decide (j ∈ done) && (s.life j).holdsLoad)
  passDue : t.alloc.passDue = s.alloc.passDue

theorem Tripping.nil (s : State) : Tripping s s [] where
  toQuiet := .refl s
  lives j := by cases s.life j <;> simp
  hit i u h := by simp at h
  miss b _ := ⟨rfl, rfl⟩
  flags _ _ _ := rfl
  window := by simp
  staleFlag := by simp
  waitQueue := by simp
  passDue := rfl

/-- One more record taken on the way into TRIP. -/
theorem Tripping.step {s t : State} {done : List RecIdx} (h : Tripping s t done) (i : RecIdx) (hi : i ∉ done) :
    Tripping s (t.tripRecord i) (done ++ [i]) := by
  have hlife : t.life i = s.life i := by
    rw [h.lives]
    cases s.life i <;> simp [hi]
  have Q := h.toQuiet.trans (quiet_tripRecord t i)
  cases hh : (s.life i).holdsLoad
  · have e : t.tripRecord i = t := by
      unfold State.tripRecord
      rw [hlife]
      cases hl : s.life i <;> simp_all [Life.holdsLoad]
    rw [e] at Q ⊢
    have hne : ∀ j u, j ∈ done ++ [i] → (s.life j).terms? = some u → (s.life j).holdsLoad = true → j ∈ done := by
      intro j u hj _ hjl
      rcases List.mem_append.mp hj with hj | hj
      · exact hj
      · rw [List.mem_singleton.mp hj, hh] at hjl
        exact absurd hjl (by simp)
    refine ⟨Q, ?_, ?_, ?_, h.flags, ?_, ?_, ?_, h.passDue⟩
    · intro j
      rw [h.lives]
      by_cases hj : j = i
      · subst hj
        cases hl : s.life j <;> simp_all [Life.holdsLoad]
      · cases s.life j <;> simp [hj]
    · exact fun j u hj ht hl => h.hit j u (hne j u hj ht hl) ht hl
    · exact fun b hb => h.miss b fun j u hj ht hl => hb j u (List.mem_append_left _ hj) ht hl
    · rw [h.window]
      simp [hh]
    · rw [h.staleFlag]
      simp [hh]
    · rw [h.waitQueue]
      refine List.filter_congr fun j _ => ?_
      by_cases hj : j = i
      · subst hj
        simp [hh]
      · simp [hj]
  · obtain ⟨u, hu⟩ : ∃ u, (s.life i).terms? = some u := by
      cases hl : s.life i <;> simp_all [Life.holdsLoad, Life.terms?]
    have e : t.tripRecord i = (t.setLife i (.spent u .trip false)).leaveBay i u.bay := by
      unfold State.tripRecord
      rw [hlife]
      cases hl : s.life i <;> simp_all [Life.holdsLoad, Life.terms?]
    rw [e] at Q ⊢
    generalize hw : t.setLife i (.spent u .trip false) = w at *
    have hwb : ∀ b, w.bay b = t.bay b := fun b => by rw [← hw]; rfl
    have hwf : w.attention = t.attention := by rw [← hw]; rfl
    have hwe : w.pool.edit = t.pool.edit := by rw [← hw]; rfl
    have hhandle : w.handle i = s.handle i := by
      rw [← hw, State.handle, State.generation_setLife, ← State.handle, h.toKept.handle]
    have hbay : ∀ b, (w.leaveBay i u.bay).bay b = if b = u.bay then
        { (t.bay u.bay).openEnable with
          record := none, lastSpent := some (s.handle i), events := (t.bay u.bay).openEnable.events.add .spent }
      else t.bay b := by
      intro b
      rw [State.bay_leaveBay, hwb, hwb, hhandle]
    have hfl := fun f => get_flags_leaveBay w i u.bay f
    rw [hwe, hwf] at hfl
    have hev : ∀ y : Bay, y.openEnable.events = y.events := fun y => by
      unfold Bay.openEnable
      split <;> rfl
    have hidem : ∀ y : Bay, y.openEnable.openEnable = y.openEnable := fun y => by
      unfold Bay.openEnable
      split <;> simp
    have hown : (w.leaveBay i u.bay).bay u.bay = { (s.bay u.bay).openEnable with
        record := none, lastSpent := some (s.handle i), events := { (s.bay u.bay).events with spent := true } } := by
      rw [hbay, if_pos rfl]
      by_cases hd : ∃ j v, j ∈ done ∧ (s.life j).terms? = some v ∧ (s.life j).holdsLoad = true ∧ v.bay = u.bay
      · obtain ⟨j, v, hj, hv, hl, hvb⟩ := hd
        have := (h.hit j v hj hv hl).1
        rw [hvb] at this
        rw [this]
        generalize hy : (s.bay u.bay) = y
        obtain ⟨o1, -, -, -, o5, -⟩ := y.openEnable_spec
        have := (Bay.openEnable_spec { y.openEnable with
          record := none, lastSpent := (t.bay u.bay).lastSpent, events := { y.events with spent := true } }).2.2.2.2.1 o1
        dsimp only at this ⊢
        rw [this]
        rfl
      · push Not at hd
        rw [(h.miss u.bay fun j v hj hv hl => hd j v hj hv hl).1, hev]
        rfl
    refine ⟨Q, ?_, ?_, ?_, ?_, ?_, ?_, ?_, by rw [State.alloc_leaveBay, ← h.passDue, ← hw]; rfl⟩
    · intro j
      rw [State.life_leaveBay, ← hw, State.life_setLife]
      by_cases hj : j = i
      · subst hj
        rw [if_pos rfl]
        cases hl : s.life j <;> simp_all [Life.holdsLoad, Life.terms?]
      · rw [if_neg hj, h.lives]
        cases s.life j <;> simp [hj]
    · intro j v hj hv hl
      by_cases hvb : v.bay = u.bay
      · rw [hvb, hown]
        refine ⟨rfl, ?_, fun huniq => ?_⟩
        · rw [hfl, if_neg (fun hx => bayFlag_ne u.bay _ (by decide) hx.1.symm), if_pos rfl]
        · rw [huniq i u hu hh rfl]
      · have hjd : j ∈ done := by
          rcases List.mem_append.mp hj with hj | hj
          · exact hj
          · have := List.mem_singleton.mp hj
            subst this
            rw [hu] at hv
            exact absurd (congrArg Terms.bay (Option.some.inj hv)).symm hvb
        obtain ⟨k1, k2, k3⟩ := h.hit j v hjd hv hl
        rw [hbay, if_neg hvb]
        refine ⟨k1, ?_, k3⟩
        rw [hfl, if_neg (fun hx => bayFlag_ne v.bay _ (by decide) hx.1.symm), if_neg, k2]
        intro hx
        have := congrArg Fin.val hx
        exact hvb (Fin.ext this)
    · intro b hb
      have hne : b ≠ u.bay := fun hx => hb i u (List.mem_append_right _ (List.mem_singleton_self i)) hu hh hx.symm
      obtain ⟨m1, m2⟩ := h.miss b fun j v hj hv hl => hb j v (List.mem_append_left _ hj) hv hl
      rw [hbay, if_neg hne]
      refine ⟨m1, ?_⟩
      rw [hfl, if_neg (fun hx => bayFlag_ne b _ (by decide) hx.1.symm), if_neg, m2]
      intro hx
      have := congrArg Fin.val hx
      exact hne (Fin.ext this)
    · intro f h1 h2
      rw [hfl, if_neg (fun hx => h2 hx.1), if_neg (bayFlag_ne _ _ h1), h.flags f h1 h2]
    · rw [edit_leaveBay, hwe, h.window, Option.map_map]
      congr 1
      funext x
      simp [hh, Bool.or_assoc]
      rfl
    · rw [hfl, if_neg (bayFlag_ne u.bay flagEditStale (by decide)), h.staleFlag, h.window]
      cases s.pool.edit with
      | none => simp
      | some x =>
        simp only [Option.map_some, Option.any_some, List.any_append, List.any_cons, List.any_nil, hh, Bool.true_and, Bool.or_false]
        rcases Bool.eq_false_or_eq_true x.stale with h1 | h1 <;>
          rcases Bool.eq_false_or_eq_true (done.any fun i => (s.life i).holdsLoad && x.handle % 64 == i.val) with h2 | h2 <;>
          rcases Bool.eq_false_or_eq_true (x.handle % 64 == i.val) with h3 | h3 <;> simp only [h1, h2, h3] <;> simp
    · rw [State.alloc_leaveBay]
      show List.filter _ w.alloc.waitQueue = _
      rw [← hw, State.alloc_setLife, h.waitQueue, List.filter_filter]
      refine List.filter_congr fun j _ => ?_
      by_cases hj : j = i
      · subst hj
        simp [hh]
      · simp [hj]

theorem Tripping.all (s : State) : ∀ (l done : List RecIdx) (t : State), (done ++ l).Nodup → Tripping s t done →
    Tripping s (l.foldl State.tripRecord t) (done ++ l)
  | [], done, t, _, h => by simpa using h
  | i :: l, done, t, hn, h => by
    have hi : i ∉ done := by
      intro hx
      exact (List.nodup_append.mp hn).2.2 i hx i (by simp) rfl
    have := Tripping.all s l (done ++ [i]) (t.tripRecord i) (by simpa using hn) (h.step i hi)
    simpa using this

theorem Untouched.tripFrame {s t : State} (U : Untouched s t) (h1 : t.alloc.opState = .trip) (h2 : t.alloc.grantOrder = [])
    (h3 : t.alloc.reclaiming = false) (h4 : t.alloc.effCeiling = s.alloc.effCeiling) (h5 : t.alloc.passDue = s.alloc.passDue) :
    t = { s with
      pool := { s.pool with records := t.pool.records, edit := t.pool.edit }, bays := t.bays,
      attention := { s.attention with flags := t.attention.flags },
      alloc := { s.alloc with
        loads := t.alloc.loads, waitQueue := t.alloc.waitQueue, grantOrder := [], reclaiming := false, opState := .trip } } := by
  dsimp only
  rw [← h1, ← h2, ← h3, ← h4, ← h5, ← U.timer, ← U.closeWindowLeft, ← U.sampler, ← U.thermal, ← U.clock, ← U.link, ← U.params,
    ← U.reply, ← U.pending, ← U.enables, ← U.ceiling, ← U.holdPort, ← U.holdClock, ← U.freeList]

/-- Entry into TRIP (R142). -/
theorem State.entersTrip (s : State) : EntersTrip s s.enterTrip := by
  have T : Tripping s (allRecords.foldl State.tripRecord s) allRecords := by
    simpa using Tripping.all s allRecords [] s (by simpa [allRecords] using List.nodup_finRange 48) (.nil s)
  have U := untouched_enterTrip s
  have hmem : ∀ i : RecIdx, i ∈ allRecords := List.mem_finRange
  generalize hv : allRecords.foldl State.tripRecord s = v at T
  obtain ⟨w, e, hp, hbw, ha, hf⟩ : ∃ w : State, s.enterTrip = (w.setAllWaitReasons .hold).raise flagTrip ∧ w.pool = v.pool ∧
      (∀ b, w.bay b = (v.bay b).openEnable) ∧ w.alloc = v.alloc.tripped ∧ ∀ f, w.attention.flags.get f =
        if f = flagReclaim ∧ s.alloc.reclaiming = true then .raisedUnseen else v.attention.flags.get f := by
    obtain ⟨x, hx, x1, x2, x3, x4⟩ : ∃ x, v.modBays Bay.openEnable = x ∧ x.pool = v.pool ∧ x.alloc = v.alloc ∧
        x.attention = v.attention ∧ ∀ b, x.bay b = (v.bay b).openEnable :=
      ⟨_, rfl, State.pool_modBays .., State.alloc_modBays .., State.attention_modBays .., fun b => State.bay_modBays ..⟩
    refine ⟨if s.alloc.reclaiming then { x with alloc := x.alloc.tripped }.raise flagReclaim else { x with alloc := x.alloc.tripped },
      by unfold State.enterTrip; rw [hv, hx], ?_⟩
    cases s.alloc.reclaiming
    · exact ⟨x1, x4, by rw [← x2]; rfl, fun f => by simp [x3]⟩
    · refine ⟨x1, x4, by rw [← x2]; rfl, fun f => ?_⟩
      rw [if_pos rfl, get_flags_raise]
      simp [x3]
  have hpool : ∀ i, s.enterTrip.life i = (v.life i).withReason .hold := by
    intro i
    rw [e, State.life_congr (State.pool_raise ..), State.life_setAllWaitReasons, State.life_congr hp]
  have hbays : ∀ b, s.enterTrip.bay b = (v.bay b).openEnable := by
    intro b
    rw [e, State.bay_congr (State.bays_raise ..), State.bay_congr (State.bays_setAllWaitReasons ..), hbw]
  have halloc : s.enterTrip.alloc = v.alloc.tripped := by
    rw [e, State.alloc_raise, State.alloc_setAllWaitReasons, ha]
  have hflags : ∀ f, s.enterTrip.attention.flags.get f =
      if f = flagTrip then .raisedUnseen
      else if f = flagReclaim ∧ s.alloc.reclaiming = true then .raisedUnseen else v.attention.flags.get f := by
    intro f
    rw [e, get_flags_raise, State.attention_setAllWaitReasons, hf]
  have hedit : s.enterTrip.pool.edit = v.pool.edit := by
    rw [e, State.pool_raise, ← hp]
    simp only [State.setAllWaitReasons]
  have hown : ∀ i u, (s.life i).terms? = some u → (s.life i).holdsLoad = true →
      s.enterTrip.bay u.bay = v.bay u.bay ∧ v.bay u.bay = { (s.bay u.bay).openEnable with
        record := none, lastSpent := (v.bay u.bay).lastSpent, events := { (s.bay u.bay).events with spent := true } } := by
    intro i u hu hl
    have k := (T.hit i u (hmem i) hu hl).1
    refine ⟨?_, k⟩
    rw [hbays]
    refine (Bay.openEnable_spec _).2.2.2.2.1 ?_
    rw [k]
    exact (Bay.openEnable_spec _).1
  have hother : ∀ b, (∀ i u, (s.life i).terms? = some u → (s.life i).holdsLoad = true → u.bay ≠ b) →
      s.enterTrip.bay b = (s.bay b).openEnable := by
    intro b hb
    rw [hbays, (T.miss b fun i u _ => hb i u).1]
  have hkeep : ∀ y : Bay, y.openEnable.record = y.record ∧ y.openEnable.events = y.events ∧ y.openEnable.lastSpent = y.lastSpent := by
    intro y
    unfold Bay.openEnable
    split <;> exact ⟨rfl, rfl, rfl⟩
  have hall : ∀ b, s.enterTrip.bay b = { (s.bay b).openEnable with
      record := (s.enterTrip.bay b).record, lastSpent := (s.enterTrip.bay b).lastSpent, events := (s.enterTrip.bay b).events } := by
    intro b
    by_cases hd : ∃ i u, (s.life i).terms? = some u ∧ (s.life i).holdsLoad = true ∧ u.bay = b
    · obtain ⟨i, u, hu, hl, rfl⟩ := hd
      obtain ⟨k1, k2⟩ := hown i u hu hl
      rw [k1, k2]
    · push Not at hd
      rw [hother b hd]
  refine ⟨?_, ?_, ?_, ?_, ?_, ?_, ?_, ?_, ?_, ?_, ?_, ?_, ?_, ?_⟩
  · intro i
    rw [hpool, T.lives]
    cases s.life i <;> simp [hmem, Life.withReason]
  · intro p
    simp [State.load, halloc, Allocator.tripped]
  · intro b
    obtain ⟨o1, -, -, -, o5, o6⟩ := (s.bay b).openEnable_spec
    rw [hall b]
    dsimp only
    refine ⟨o1, fun hc => ?_, fun hc => ?_⟩
    · rw [o6 hc]
      exact ⟨rfl, rfl, rfl, rfl⟩
    · rw [o5 hc]
      exact ⟨rfl, rfl, rfl, rfl⟩
  · intro i u hu hl
    obtain ⟨k1, k2⟩ := hown i u hu hl
    obtain ⟨-, f1, f2⟩ := T.hit i u (hmem i) hu hl
    refine ⟨by rw [k1, k2], by rw [k1, k2], ?_, fun hx => by rw [k1]; exact f2 hx⟩
    rw [hflags, if_neg (fun hx => bayFlag_ne u.bay _ (by decide) hx.symm),
      if_neg (fun hx => bayFlag_ne u.bay _ (by decide) hx.1.symm), f1]
  · intro b hb
    obtain ⟨k1, k2, k3⟩ := hkeep (s.bay b)
    rw [hother b hb]
    refine ⟨k1, k2, k3, ?_⟩
    rw [hflags, if_neg (fun hx => bayFlag_ne b _ (by decide) hx.symm),
      if_neg (fun hx => bayFlag_ne b _ (by decide) hx.1.symm), (T.miss b fun i u _ => hb i u).2]
  · intro b
    rw [hall b]
    unfold Bay.openEnable
    split <;> rfl
  · rw [hflags, if_pos rfl]
  · rw [hflags, if_neg (by decide)]
    cases s.alloc.reclaiming
    · simp [T.flags flagReclaim (by decide) (by decide)]
    · simp
  · rw [hflags, if_neg (by decide), if_neg (by simp [flagReclaim, flagEditStale]), T.staleFlag]
  · intro f hf
    have h1 : f ≠ flagTrip ∧ f ≠ flagReclaim ∧ 16 ≤ f.val ∧ f ≠ flagEditStale := by
      rcases hf with rfl | rfl | rfl <;> decide
    rw [hflags, if_neg h1.1, if_neg (fun hx => h1.2.1 hx.1), T.flags f h1.2.2.1 h1.2.2.2]
  · rw [hedit, T.window]
  · exact U.generation
  · intro hq
    rw [halloc]
    show v.alloc.waitQueue = _
    rw [T.waitQueue]
    refine List.filter_eq_self.mpr fun j hj => ?_
    have := (hq.2.1 j).mp hj
    cases hl : s.life j <;> simp_all [Life.isWaiting, Life.holdsLoad]
  · have h1 : s.enterTrip.alloc.opState = .trip := by rw [halloc]; rfl
    have h2 : s.enterTrip.alloc.grantOrder = [] := by rw [halloc]; rfl
    have h3 : s.enterTrip.alloc.reclaiming = false := by rw [halloc]; rfl
    have h4 : s.enterTrip.alloc.effCeiling = s.alloc.effCeiling := by rw [halloc]; exact T.effCeiling
    have h5 : s.enterTrip.alloc.passDue = s.alloc.passDue := by rw [halloc]; exact T.passDue
    exact U.tripFrame h1 h2 h3 h4 h5

end Sys2Proof.Machine
end

