-- ==== Sys2Proof/Laws/Commands.lean ====
section
/-!
SUPPORT. What the operations that the commands share can do: a handle's resolution, the range checks of a request, creation, the updates of
one bay, a bay result's delivery, the record a boundary found, the order at the end of a conversion, and a calibration that starts.
-/
namespace Sys2Proof.Machine

/-! ### Handles -/

theorem State.resolve_iff (s : State) (h : Nat) (i : RecIdx) :
    s.resolve h = some i ↔ h = (s.record i).generation.val * 64 + i.val := by
  unfold State.resolve
  have := i.isLt
  constructor
  · intro e
    split at e
    · split at e
      · have := Option.some.inj e
        subst this
        simp only at *
        omega
      · simp at e
    · simp at e
  · intro e
    have h1 : h % 64 = i.val := by omega
    have h2 : h / 64 = (s.record i).generation.val := by omega
    have hi : h % 64 < 48 := by omega
    have he : (⟨h % 64, hi⟩ : RecIdx) = i := Fin.ext h1
    simp [he, h2, hi]

theorem State.resolve_handle (s : State) (h : Nat) (i : RecIdx) (e : s.handle i = h) : s.resolve h = some i := by
  rw [State.resolve_iff, ← e]; rfl

theorem State.resolve_none (s : State) (h : Nat) (e : ∀ i : RecIdx, s.handle i ≠ h) : s.resolve h = none := by
  cases hr : s.resolve h with
  | none => rfl
  | some i => exact absurd ((State.resolve_iff ..).mp hr).symm (e i)

/-! ### Requests -/

theorem patternOk_iff (m v : Byte) : patternOk m.toNat v.toNat = true ↔
    m.toNat ≤ 63 ∧ v.toNat ≤ 63 ∧ ∀ k, v.toNat.testBit k = true → m.toNat.testBit k = true := by
  unfold patternOk
  simp only [Bool.and_eq_true, decide_eq_true_eq, beq_iff_eq, and_assoc]
  refine and_congr_right fun hm => and_congr_right fun hv => ?_
  constructor
  · intro h k hk
    have hk6 : k < 6 := by
      by_contra hn
      have := Nat.lt_of_lt_of_le (show v.toNat < 2 ^ 6 by omega) (Nat.pow_le_pow_right (by decide) (Nat.le_of_not_lt hn))
      rw [Nat.testBit_lt_two_pow this] at hk
      simp at hk
    have := congrArg (fun x : BitVec 6 => x.getLsbD k) h
    simp [hk6] at this
    exact this hk
  · intro h
    apply BitVec.eq_of_getLsbD_eq
    intro k hk
    simp only [BitVec.getLsbD_and, BitVec.getLsbD_not, BitVec.getLsbD_ofNat, hk, decide_true, Bool.true_and]
    rw [Nat.zero_testBit]
    cases hv : v.toNat.testBit k with
    | false => rfl
    | true => rw [h k hv]; rfl

/-! ### Creation -/

theorem State.creates (s : State) (i : RecIdx) (rest : List RecIdx) (u : Terms) :
    Creates s (s.create i rest u) i rest u.bay u := by
  have he : ∀ (t : State) (c : BayIdx), (t.enqueue i u.cls).bay c = t.bay c := fun _ _ => rfl
  unfold State.create
  refine ⟨?_, ?_, ?_, ?_, ?_, ?_, ?_, ?_⟩
  · rw [State.life_congr (State.pool_trigger ..)]
    show State.life (State.setLife _ _ _) _ = _
    rw [State.life_setLife_self]; simp [State.entryReason]
  · intro j hj
    rw [State.life_congr (State.pool_trigger ..)]
    show State.life (State.setLife _ _ _) _ = _
    rw [State.life_setLife, if_neg hj]; rfl
  · intro j; rw [State.record_congr (State.pool_trigger ..)]
    exact State.generation_setLife ..
  · rw [State.pool_trigger]; rfl
  · rw [State.bay_congr (State.bays_trigger ..)]; rw [he, State.bay_modBay_self]; rfl
  · intro c hc; rw [State.bay_congr (State.bays_trigger ..), he, State.bay_modBay, if_neg hc]; rfl
  · obtain ⟨l1, l2, e1, e2, e3, e4⟩ := insertAfterLast_eq (fun j => decide (u.cls ≤ (({ s with
      pool := { s.pool with freeList := rest } }.setLife i (.waiting u (s.entryReason .none))).modBay u.bay fun y =>
        { y with record := some i }).classOf j)) i s.alloc.waitQueue
    refine ⟨l1, l2, e1, ?_, ?_, ?_⟩
    · rw [State.waitQueue_trigger]; exact e2
    · intro j hj; have := e3 j hj; simp at this; simp only [State.classOf, State.life_congr (State.pool_trigger _)]; exact this
    · intro j hj; have := e4 j hj; simp at this; simp only [State.classOf, State.life_congr (State.pool_trigger _)]; exact this
  · rw [State.trigger_eq]; rfl

/-! ### One bay -/

theorem State.modBay_eq (s : State) (b : BayIdx) (f : Bay → Bay) : s.modBay b f = s.setBay b (f (s.bay b)) := rfl

@[simp] theorem State.setBay_setBay (s : State) (b : BayIdx) (y z : Bay) : (s.setBay b y).setBay b z = s.setBay b z := by
  simp [State.setBay]

@[simp] theorem State.bay_setBay_self (s : State) (b : BayIdx) (y : Bay) : (s.setBay b y).bay b = y := by
  rw [State.bay_setBay, if_pos rfl]

@[simp] theorem State.modBay_modBay (s : State) (b : BayIdx) (f g : Bay → Bay) :
    (s.modBay b f).modBay b g = s.modBay b fun y => g (f y) := by
  simp only [State.modBay_eq, State.setBay_setBay, State.bay_setBay_self]

theorem channelBay_bayChannel (b : BayIdx) : channelBay (bayChannel b) = some b := by
  revert b; decide

/-! ### Results of a bay -/

/-- A scan result of a bay under a GRANTED or RETIRING record: the latest sample and the period sum (R101, R113). -/
theorem State.countCharge_held (s : State) (b : BayIdx) (r : Nat) (i : RecIdx) (h : (s.bay b).record = some i)
    (hl : (s.life i).holdsLoad = true) :
    (s.latest b r).countCharge b r = s.setBay b (
      if (s.bay b).sumOwner = some (s.handle i) then
        (if 1000 ≤ (s.bay b).periodCount then { s.bay b with latestSample := r }
        else { s.bay b with latestSample := r, periodSum := (s.bay b).periodSum + r, periodCount := (s.bay b).periodCount + 1 })
      else { s.bay b with latestSample := r, sumOwner := some (s.handle i), periodSum := r, periodCount := 1 }) := by
  have lm : ∀ (f : Bay → Bay) (i : RecIdx), (s.modBay b f).life i = s.life i := fun _ _ => rfl
  have hm : ∀ (f : Bay → Bay) (i : RecIdx), (s.modBay b f).handle i = s.handle i := fun _ _ => rfl
  simp only [State.latest, State.countCharge, State.bay_modBay_self, h, lm, hl, State.modBay_modBay, hm]
  simp only [Bool.true_eq_false, if_false, State.modBay_eq]
  congr 1
  by_cases ho : (s.bay b).sumOwner = some (s.handle i)
  · by_cases hc : 1000 ≤ (s.bay b).periodCount <;> simp [ho, hc, h]
  · simp [ho, h]

/-- A scan result of a bay without such a record changes only the latest sample so far (R113). -/
theorem State.countCharge_bare (s : State) (b : BayIdx) (r : Nat)
    (h : ∀ i, (s.bay b).record = some i → (s.life i).holdsLoad = false) :
    (s.latest b r).countCharge b r = s.setBay b { s.bay b with latestSample := r } := by
  have lm : ∀ (f : Bay → Bay) (i : RecIdx), (s.modBay b f).life i = s.life i := fun _ _ => rfl
  have hr : ((s.latest b r).bay b).record = (s.bay b).record := by rw [State.latest, State.bay_modBay_self]
  rw [State.countCharge, hr]
  cases hi : (s.bay b).record with
  | none => rfl
  | some i => dsimp only; exact if_pos ((congrArg Life.holdsLoad (lm _ i)).trans (h i hi))

/-! ### The record a boundary found -/

/-- The record a boundary steps on a bay: the one the entry names, while it is the life the boundary found there (R10, R58). -/
theorem State.foundRecord_eq_some (s : State) (b : BayIdx) (i : RecIdx) :
    s.foundRecord b = some i ↔ (s.bay b).record = some i ∧ s.timer.found.get b = some (s.handle i) := by
  simp [State.foundRecord, Option.filter_eq_some_iff]

/-- What a boundary finds on a bay: the GRANTED or RETIRING record the entry names (R58). -/
theorem State.heldHandle_eq_some (s : State) (b : BayIdx) (h : Nat) :
    s.heldHandle b = some h ↔ ∃ i, (s.bay b).record = some i ∧ (s.life i).holdsLoad = true ∧ s.handle i = h := by
  simp only [State.heldHandle, Option.map_eq_some_iff, Option.filter_eq_some_iff, and_assoc]

/-! ### The end of a conversion -/

@[simp] theorem State.pool_nextConversion (s : State) : s.nextConversion.pool = s.pool := rfl
@[simp] theorem State.alloc_nextConversion (s : State) : s.nextConversion.alloc = s.alloc := rfl
@[simp] theorem State.timer_nextConversion (s : State) : s.nextConversion.timer = s.timer := rfl
@[simp] theorem State.bays_nextConversion (s : State) : s.nextConversion.bays = s.bays := rfl
@[simp] theorem State.closeWindowLeft_nextConversion (s : State) : s.nextConversion.closeWindowLeft = s.closeWindowLeft := rfl
@[simp] theorem State.thermal_nextConversion (s : State) : s.nextConversion.thermal = s.thermal := rfl
@[simp] theorem State.clock_nextConversion (s : State) : s.nextConversion.clock = s.clock := rfl
@[simp] theorem State.link_nextConversion (s : State) : s.nextConversion.link = s.link := rfl
@[simp] theorem State.attention_nextConversion (s : State) : s.nextConversion.attention = s.attention := rfl
@[simp] theorem State.params_nextConversion (s : State) : s.nextConversion.params = s.params := rfl
@[simp] theorem State.reply_nextConversion (s : State) : s.nextConversion.reply = s.reply := rfl
@[simp] theorem State.pending_nextConversion (s : State) : s.nextConversion.pending = s.pending := rfl
@[simp] theorem State.record_nextConversion (s : State) (i : RecIdx) : s.nextConversion.record i = s.record i := rfl
@[simp] theorem State.life_nextConversion (s : State) (i : RecIdx) : s.nextConversion.life i = s.life i := rfl
@[simp] theorem State.handle_nextConversion (s : State) (i : RecIdx) : s.nextConversion.handle i = s.handle i := rfl
@[simp] theorem State.bay_nextConversion (s : State) (b : BayIdx) : s.nextConversion.bay b = s.bay b := rfl
@[simp] theorem State.load_nextConversion (s : State) (p : Position) : s.nextConversion.load p = s.load p := rfl
@[simp] theorem State.resultOf_nextConversion (s : State) (c : Channel) (raw : Int) :
    s.nextConversion.resultOf c raw = s.resultOf c raw := rfl
@[simp] theorem State.watch_nextConversion (s : State) (b : BayIdx) : s.nextConversion.watch b = s.watch b := rfl
@[simp] theorem State.feedOver_nextConversion (s : State) (r : Nat) : s.nextConversion.feedOver r = s.feedOver r := rfl
@[simp] theorem State.sampler_nextConversion (s : State) : s.nextConversion.sampler = s.sampler.choose := rfl

/-- The end of the conversion in progress, in both orders of delivery and choice (R94, R97). -/
theorem execConversionEnd_current (reading : Reading) (s : State) (v : Conversion) (h : s.sampler.current = some v) :
    execConversionEnd reading s =
      .next (if reading.late then s.nextConversion.deliver v reading.raw else (s.deliver v reading.raw).nextConversion) := by
  simp only [execConversionEnd, State.converting, h]

/-! ### A calibration that starts -/

@[simp] theorem State.pool_startCalibration (s : State) (b : BayIdx) : (s.startCalibration b).pool = s.pool := rfl
@[simp] theorem State.alloc_startCalibration (s : State) (b : BayIdx) : (s.startCalibration b).alloc = s.alloc := rfl
@[simp] theorem State.closeWindowLeft_startCalibration (s : State) (b : BayIdx) : (s.startCalibration b).closeWindowLeft = s.closeWindowLeft := rfl
@[simp] theorem State.sampler_startCalibration (s : State) (b : BayIdx) : (s.startCalibration b).sampler = s.sampler := rfl
@[simp] theorem State.thermal_startCalibration (s : State) (b : BayIdx) : (s.startCalibration b).thermal = s.thermal := rfl
@[simp] theorem State.clock_startCalibration (s : State) (b : BayIdx) : (s.startCalibration b).clock = s.clock := rfl
@[simp] theorem State.link_startCalibration (s : State) (b : BayIdx) : (s.startCalibration b).link = s.link := rfl
@[simp] theorem State.attention_startCalibration (s : State) (b : BayIdx) : (s.startCalibration b).attention = s.attention := rfl
@[simp] theorem State.params_startCalibration (s : State) (b : BayIdx) : (s.startCalibration b).params = s.params := rfl
@[simp] theorem State.reply_startCalibration (s : State) (b : BayIdx) : (s.startCalibration b).reply = s.reply := rfl
@[simp] theorem State.pending_startCalibration (s : State) (b : BayIdx) : (s.startCalibration b).pending = s.pending := rfl
@[simp] theorem State.timer_startCalibration (s : State) (b : BayIdx) :
    (s.startCalibration b).timer = { s.timer with outstanding := s.timer.outstanding.filter (· ≠ .settle b) } := rfl

theorem State.bay_startCalibration (s : State) (b c : BayIdx) :
    (s.startCalibration b).bay c = if c = b then (s.bay b).calStarted s.params.calSettle else s.bay c :=
  State.bay_modBay s b (fun y => y.calStarted s.params.calSettle) c

end Sys2Proof.Machine
end

