-- ==== Sys2Proof/Laws/Pass.lean ====
section
/-!
SUPPORT. What an overtaken window, a change of a grant, an admission, the admission pass, the reclaim step and a recomputed effective ceiling
do: each operation satisfies the relation of Sys2Proof/Safety.lean that says it whole.
-/
namespace Sys2Proof.Machine

/-! ### A change of one record's contribution, in either direction -/

/-- A reported change of a contribution in one record update (R30, R39, R134, R140). -/
theorem State.contribute_change (s : State) (t : Terms) (m n : Nat) (h : m ≠ n) :
    s.contribute t m n =
      let a := s.alloc.shift t m n
      { s with
        attention := { s.attention with
          flags := if s.alloc.reclaiming && a.fits then s.attention.flags.set 20 .raisedUnseen else s.attention.flags }
        alloc := { a with
          reclaiming := s.alloc.reclaiming && !a.fits
          passDue := s.alloc.passDue ||
            ((decide (n < m) || s.alloc.reclaiming) && s.alloc.opState == .running && !(s.alloc.reclaiming && !a.fits)) } } := by
  by_cases hlt : n < m
  · rw [State.contribute_fall s t m n hlt]
    simp [hlt]
  · have h1 : (s.alloc.shift t m n).opState = s.alloc.opState := by simp
    have h2 : (s.alloc.shift t m n).reclaiming = s.alloc.reclaiming := by simp
    have h3 : (s.alloc.shift t m n).passDue = s.alloc.passDue := by simp
    unfold State.contribute
    rw [if_neg h]
    dsimp only
    rw [if_neg hlt]
    generalize s.alloc.shift t m n = a at *
    simp only [State.trigger_eq, State.evaluate]
    obtain ⟨l, w, g, c, e, o, hp, hc, rc, pd⟩ := a
    cases hr : s.alloc.reclaiming <;> cases hf : Allocator.fits ⟨l, w, g, c, e, o, hp, hc, rc, pd⟩ <;>
      simp_all [State.raise, flagReclaim]

/-- A change that reaches a record (R179). -/
theorem State.overtakes (s : State) (i : RecIdx) : Overtakes s (s.markStale i) i := by
  refine ⟨State.edit_markStale s i, ?_, fun f h => ?_, ?_⟩
  · rw [get_flags_markStale]
    simp
  · rw [get_flags_markStale, if_neg fun hh => h hh.1]
  · have h := State.markStale_eq s i
    rw [State.attention_markStale] at h ⊢
    rw [State.edit_markStale]
    exact h

/-- A GRANTED record takes terms of the same pattern and a grant, and a window on it is overtaken (R25, R30, R47, R50, R137, R179). -/
theorem State.regrants (s : State) (i : RecIdx) (u u' : Terms) (g g' : Grant) (h : s.life i = .granted u g)
    (hp : u'.mask = u.mask ∧ u'.value = u.value) : Regrants s ((s.become i (.granted u' g')).markStale i) i u g u' g' := by
  have hst : s.become i (.granted u' g') =
      (s.setLife i (.granted u' g')).contribute u' (max g.active g.staged) (max g'.active g'.staged) := by
    simp only [State.become, Life.terms?, h, Life.contribution]
  have Q : Quiet s ((s.become i (.granted u' g')).markStale i) :=
    (quiet_become s i _ (by simp [h])).trans (quiet_markStale _ i)
  have hlife : ∀ j, ((s.become i (.granted u' g')).markStale i).life j = if j = i then .granted u' g' else s.life j := by
    intro j
    rw [State.life_markStale, State.life_become]
  have hload : ∀ p, ((s.become i (.granted u' g')).markStale i).load p =
      if u'.onAt p then s.load p + max g'.active g'.staged - max g.active g.staged else s.load p := by
    intro p
    rw [State.load_congr (State.alloc_markStale ..), hst, State.load_contribute]
    rfl
  have hedit : (s.become i (.granted u' g')).pool.edit = s.pool.edit := by rw [hst]; simp
  have hbays : ((s.become i (.granted u' g')).markStale i).bays = s.bays := by rw [State.bays_markStale, hst]; simp
  have hwq : ((s.become i (.granted u' g')).markStale i).alloc.waitQueue = s.alloc.waitQueue := by rw [State.alloc_markStale, hst]; simp
  have hgo : ((s.become i (.granted u' g')).markStale i).alloc.grantOrder = s.alloc.grantOrder := by
    rw [State.alloc_markStale, hst]; simp
  have hfl : ∀ f, ((s.become i (.granted u' g')).markStale i).attention.flags.get f =
      if f = flagEditStale ∧ s.pool.edit.any (fun w => w.handle % 64 == i.val && !w.stale) = true then .raisedUnseen
      else (s.become i (.granted u' g')).attention.flags.get f := by
    intro f
    rw [get_flags_markStale, hedit]
  have hframe := Q.frame
  rw [hbays, hwq, hgo] at hframe
  have hpool : ((s.become i (.granted u' g')).markStale i).pool = { s.pool with
      records := ((s.become i (.granted u' g')).markStale i).pool.records, edit := ((s.become i (.granted u' g')).markStale i).pool.edit } := by
    dsimp only
    rw [← Q.freeList]
  generalize hm : max g.active g.staged = m, hn : max g'.active g'.staged = n at *
  have key : (((s.become i (.granted u' g')).markStale i).alloc.reclaiming = true ↔
        s.alloc.reclaiming = true ∧ (m = n ∨ ∃ p, s.alloc.effCeiling < ((s.become i (.granted u' g')).markStale i).load p)) ∧
      (s.become i (.granted u' g')).attention.flags.get flagReclaim =
        (if s.alloc.reclaiming = true ∧ (s.become i (.granted u' g')).alloc.reclaiming = false
        then .raisedUnseen else s.attention.flags.get flagReclaim) ∧
      (s.become i (.granted u' g')).alloc.passDue = (s.alloc.passDue ||
        ((decide (n < m) || s.alloc.reclaiming) && s.alloc.opState == .running &&
          !(s.become i (.granted u' g')).alloc.reclaiming && decide (n ≠ m))) ∧
      ∀ f, f ≠ flagReclaim → (s.become i (.granted u' g')).attention.flags.get f = s.attention.flags.get f := by
    by_cases hc : m = n
    · rw [State.alloc_markStale, hst, hc, State.contribute_same]
      refine ⟨by simp, by simp, by simp, fun f _ => rfl⟩
    · have hf := Allocator.fits_iff (s.alloc.shift u' m n)
      have e : s.become i (.granted u' g') = _ := hst.trans (State.contribute_change _ u' _ _ hc)
      have hg : (∃ p, s.alloc.effCeiling < ((s.become i (.granted u' g')).markStale i).load p) ↔
          (s.alloc.shift u' m n).fits = false := by
        rw [← Bool.not_eq_true, hf]
        push Not
        simp only [Allocator.effCeiling_shift]
        simp only [State.load_congr (State.alloc_markStale (s.become i (.granted u' g')) i)]
        rw [e]
        rfl
      rw [hg, State.alloc_markStale, e]
      refine ⟨by simp [hc], ?_, ?_, ?_⟩
      · by_cases hr : s.alloc.reclaiming = true <;> by_cases hF : (s.alloc.shift u' m n).fits = true <;>
          simp [hr, hF, get_flags_set, flagReclaim]
      · have : n ≠ m := fun x => hc x.symm
        simp [this]
      · intro f hne
        have : f.val ≠ 20 := fun hh => hne (Fin.ext hh)
        by_cases hx : (s.alloc.reclaiming && (s.alloc.shift u' m n).fits) = true <;> simp [hx, get_flags_set, this]
  obtain ⟨k1, k2, k3, k4⟩ := key
  subst hm hn
  refine ⟨by simp [hlife], hp, fun j hj => by simp [hlife, hj], Q.generation, hload, k1, ?_, ?_, ?_, ?_, ?_, ?_⟩
  · rw [hfl, if_neg (by simp [flagReclaim, flagEditStale]), State.alloc_markStale]
    exact k2
  · rw [State.alloc_markStale]
    exact k3
  · intro f h1 h2
    rw [hfl, if_neg (fun hh => h2 hh.1), k4 f h1]
  · rw [State.edit_markStale, hedit]
  · rw [hfl, k4 _ (by simp [flagReclaim, flagEditStale])]
    simp
  · rw [← hpool]
    exact hframe

/-- A GRANTED record's staged grant takes a value and a window on it is overtaken (R30, R47, R50, R137, R179). -/
theorem State.stages (s : State) (i : RecIdx) (u : Terms) (g : Grant) (n : Nat) (h : s.life i = .granted u g) :
    Stages s ((s.stage i n).markStale i) i u g n := by
  rw [State.stage_granted s i n u g h]
  exact State.regrants s i u u g { g with staged := n } h ⟨rfl, rfl⟩

/-! ### Room -/

/-- A pattern whose value lies within its mask is on in the position of that value (R1). -/
theorem Terms.on_somewhere (u : Terms) (h : (u.value &&& ~~~u.mask) = 0#6) : ∃ p : Position, u.onAt p = true := by
  refine ⟨⟨u.value.toNat, u.value.isLt⟩, ?_⟩
  simp only [Terms.onAt, beq_iff_eq, BitVec.ofNat_toNat, BitVec.setWidth_eq]
  generalize u.value = v, u.mask = m at *
  ext k hk
  have := congrArg (fun x : BitVec 6 => x[k]) h
  simp only [BitVec.getElem_and, BitVec.getElem_not, BitVec.getElem_zero] at this ⊢
  cases hv : v[k] <;> cases hm : m[k] <;> simp_all

/-- The smallest headroom is reached in some position in which the terms are on (R34). -/
theorem roomUnder_eq (ceiling : Nat) (u : Terms) (load : Position → Nat) (h : ∃ p, u.onAt p = true) :
    ∃ p, u.onAt p = true ∧ roomUnder ceiling u load = ceiling - load p := by
  have key : ∀ (l : List Position) (m : Nat),
      l.foldl (fun m p => if u.onAt p then min m (ceiling - load p) else m) m = m ∨
        ∃ p, u.onAt p = true ∧ l.foldl (fun m p => if u.onAt p then min m (ceiling - load p) else m) m = ceiling - load p := by
    intro l
    induction l with
    | nil => intro m; exact .inl rfl
    | cons q l ih =>
      intro m
      rw [List.foldl_cons]
      rcases ih (if u.onAt q then min m (ceiling - load q) else m) with e | e
      · rw [e]
        split
        · rename_i hq
          rcases le_total m (ceiling - load q) with hle | hle
          · exact .inl (min_eq_left hle)
          · exact .inr ⟨q, hq, min_eq_right hle⟩
        · exact .inl rfl
      · exact .inr e
  obtain ⟨q, hq⟩ := h
  rcases key allPositions ceiling with e | e
  · have h1 : roomUnder ceiling u load = ceiling := e
    have h2 := roomUnder_le ceiling u load q hq
    exact ⟨q, hq, by omega⟩
  · exact e

/-- Room is the smallest headroom over the positions in which the terms are on (R34). -/
theorem isRoom_roomUnder (ceiling : Nat) (u : Terms) (load : Position → Nat) (h : ∃ p, u.onAt p = true) :
    IsRoom ceiling load u (roomUnder ceiling u load) :=
  ⟨fun p hp => roomUnder_le ceiling u load p hp, roomUnder_eq ceiling u load h⟩

/-- There is one room (R34). -/
theorem IsRoom.eq {ceiling : Nat} {load : Position → Nat} {u : Terms} {m n : Nat} (hm : IsRoom ceiling load u m)
    (hn : IsRoom ceiling load u n) : m = n := by
  obtain ⟨h1, p, hp, e1⟩ := hm
  obtain ⟨h2, q, hq, e2⟩ := hn
  have := h1 q hq
  have := h2 p hp
  omega

/-- The condition of R46 read off the model's projected room. -/
theorem State.fitsWith_iff (s : State) (low : List RecIdx) (u : Terms) (h : ∃ p, u.onAt p = true) :
    s.FitsWith low u ↔ u.need ≤ s.projectedRoom low u := by
  constructor
  · rintro ⟨n, hn, hle⟩
    rw [hn.eq (isRoom_roomUnder _ u _ h)] at hle
    exact hle
  · intro hle
    exact ⟨_, isRoom_roomUnder _ u _ h, hle⟩

/-! ### Admission -/

/-- Admission of a WAITING record outside reclaiming (R43). -/
theorem State.admits (s : State) (i : RecIdx) (u : Terms) (r : WaitReason) (n : Nat) (h : s.life i = .waiting u r)
    (hr : s.alloc.reclaiming = false) : Admits s (s.admission i u n) i u n := by
  have hb : s.become i (.granted u (s.admittedGrant u n)) =
      { s.setLife i (.granted u (s.admittedGrant u n)) with alloc := s.alloc.shift u 0 n } := by
    have hm : max (s.admittedGrant u n).active (s.admittedGrant u n).staged = n := by simp [State.admittedGrant]
    simp only [State.become, Life.terms?, h, Life.contribution, hm]
    by_cases hn : (0 : Nat) = n
    · rw [← hn, State.contribute_same]
      have : s.alloc.shift u 0 0 = s.alloc := by
        simp only [Allocator.shift, Nat.add_zero, Nat.sub_zero, ite_self]
        have : (Vector.ofFn fun p => s.alloc.loads.get p) = s.alloc.loads := by
          ext k hk
          simp [Vector.get_eq_getElem]
        rw [this]
      rw [this]
      rfl
    · rw [State.contribute_change _ u _ _ hn]
      have e : s.alloc.shift u 0 n = { s.alloc with loads := (s.alloc.shift u 0 n).loads } := rfl
      simp [hr, State.setLife, State.setRecord]
      rw [e]
      simp [hr]
  have hwq : (s.become i (.granted u (s.admittedGrant u n))).alloc.waitQueue = s.alloc.waitQueue := State.waitQueue_become ..
  have hgo : (s.become i (.granted u (s.admittedGrant u n))).alloc.grantOrder = s.alloc.grantOrder := State.grantOrder_become ..
  have ha : (s.admission i u n).alloc = { s.alloc.shift u 0 n with
      waitQueue := s.alloc.waitQueue.filter (· ≠ i), grantOrder := s.alloc.grantOrder ++ [i] } := by
    unfold State.admission
    rw [State.alloc_markStale, hb]
    simp [State.addEvent, State.raise, State.modBay, State.setBay]
  have hl : ∀ j, (s.admission i u n).life j = if j = i then .granted u (s.admittedGrant u n) else s.life j := by
    intro j
    unfold State.admission
    rw [State.life_markStale]
    exact (State.life_become s i _ j)
  have hy : ∀ b, (s.admission i u n).bay b = if b = u.bay then
      { (s.bay u.bay).closeEnable with events := (s.bay u.bay).events.add .admitted } else s.bay b := by
    intro b
    unfold State.admission
    dsimp only
    rw [State.bay_congr (State.bays_markStale ..), State.bay_addEvent, State.bay_modBay_self, State.bay_modBay, hb]
    split <;> rfl
  have hf : ∀ f, (s.admission i u n).attention.flags.get f =
      if f = flagEditStale ∧ s.pool.edit.any (fun w => w.handle % 64 == i.val && !w.stale) = true then .raisedUnseen
      else if f = bayFlag u.bay then .raisedUnseen else s.attention.flags.get f := by
    intro f
    unfold State.admission
    rw [get_flags_markStale, get_flags_addEvent, hb]
    rfl
  have he : (s.admission i u n).pool.edit =
      s.pool.edit.map fun w => { w with stale := w.stale || decide (w.handle % 64 = i.val) } := by
    unfold State.admission
    rw [State.edit_markStale, hb]
    rfl
  have Q := quiet_admission s i u n (by simp [h])
  refine ⟨?_, fun j hj => by simp [hl, hj], Q.generation, ?_, ?_, fun b hne => by simp [hy, hne], ?_, ?_, he, ?_, ?_⟩
  · rw [hl, if_pos rfl]
    unfold State.admittedGrant taperSetUp
    cases u.taper <;> rfl
  · intro p
    rw [State.load, ha]
    dsimp only
    rw [Allocator.loads_shift]
    simp [State.load]
  · rw [hy, if_pos rfl]
    rfl
  · rw [hf, if_neg (fun hh => bayFlag_ne u.bay flagEditStale (by decide) hh.1.symm), if_pos rfl]
  · intro f h1 h2
    rw [hf, if_neg (fun hh => h2 hh.1), if_neg h1]
  · rw [hf, if_neg (bayFlag_ne u.bay flagEditStale (by decide))]
    simp
  · have hframe := Q.frame
    have hpool : (s.admission i u n).pool =
        { s.pool with records := (s.admission i u n).pool.records, edit := (s.admission i u n).pool.edit } := by
      dsimp only
      rw [← Q.freeList]
    rw [← hpool]
    refine hframe.trans ?_
    rw [ha]
    simp [Allocator.shift]

/-! ### Orders -/

/-- In a list without repeats an earlier entry has the lower place. -/
theorem pairwise_idxOf {l : List RecIdx} (h : l.Nodup) : l.Pairwise fun i j => l.idxOf i < l.idxOf j := by
  rw [List.pairwise_iff_getElem]
  intro a b ha hb hab
  rw [List.Nodup.idxOf_getElem h, List.Nodup.idxOf_getElem h]
  exact hab

/-- The records of the grant order list stand in the walk order, and no others. -/
theorem State.mem_victims (s : State) (i : RecIdx) : i ∈ s.victims ↔ i ∈ s.alloc.grantOrder := by
  simp only [State.victims, List.mem_flatMap, List.mem_filter, List.mem_reverse, decide_eq_true_eq]
  constructor
  · rintro ⟨_, _, h, _⟩
    exact h
  · intro h
    refine ⟨s.classOf i, ?_, h, rfl⟩
    generalize s.classOf i = c
    revert c
    decide

theorem State.mem_restoreOrder (s : State) (i : RecIdx) : i ∈ s.restoreOrder ↔ i ∈ s.alloc.grantOrder := by
  simp only [State.restoreOrder, List.mem_flatMap, List.mem_filter, decide_eq_true_eq]
  constructor
  · rintro ⟨_, _, h, _⟩
    exact h
  · intro h
    refine ⟨s.classOf i, ?_, h, rfl⟩
    generalize s.classOf i = c
    revert c
    decide

/-- The walk order is class ascending and youngest first (R45, R137). -/
theorem State.pairwise_victims (s : State) (h : s.alloc.grantOrder.Nodup) : s.victims.Pairwise s.LowerFirst := by
  rw [State.victims, List.pairwise_flatMap]
  refine ⟨fun c _ => ?_, ?_⟩
  · refine List.Pairwise.imp_of_mem ?_ (List.Pairwise.filter _ (List.pairwise_reverse.mpr (pairwise_idxOf h)))
    intro i j hi hj hlt
    have e1 : s.classOf i = c := by simpa using (List.mem_filter.mp hi).2
    have e2 : s.classOf j = c := by simpa using (List.mem_filter.mp hj).2
    exact .inr ⟨e1.trans e2.symm, hlt⟩
  · have : List.Pairwise (fun a b : Fin 4 => a < b) [0, 1, 2, 3] := by decide
    refine this.imp fun {a b} hab i hi j hj => .inl ?_
    have e1 : s.classOf i = a := by simpa using (List.mem_filter.mp hi).2
    have e2 : s.classOf j = b := by simpa using (List.mem_filter.mp hj).2
    rw [e1, e2]
    exact hab

/-- The restore order is class descending and oldest first (R49). -/
theorem State.pairwise_restoreOrder (s : State) (h : s.alloc.grantOrder.Nodup) : s.restoreOrder.Pairwise s.RaiseFirst := by
  rw [State.restoreOrder, List.pairwise_flatMap]
  refine ⟨fun c _ => ?_, ?_⟩
  · refine List.Pairwise.imp_of_mem ?_ (List.Pairwise.filter _ (pairwise_idxOf h))
    intro i j hi hj hlt
    have e1 : s.classOf i = c := by simpa using (List.mem_filter.mp hi).2
    have e2 : s.classOf j = c := by simpa using (List.mem_filter.mp hj).2
    exact .inr ⟨e1.trans e2.symm, hlt⟩
  · have : List.Pairwise (fun a b : Fin 4 => b < a) [3, 2, 1, 0] := by decide
    refine this.imp fun {a b} hab i hi j hj => .inl ?_
    have e1 : s.classOf i = a := by simpa using (List.mem_filter.mp hi).2
    have e2 : s.classOf j = b := by simpa using (List.mem_filter.mp hj).2
    rw [e1, e2]
    exact hab

theorem State.nodup_victims (s : State) (h : s.alloc.grantOrder.Nodup) : s.victims.Nodup := by
  refine (s.pairwise_victims h).imp fun {i j} hij e => ?_
  subst e
  rcases hij with hij | hij
  · exact lt_irrefl _ hij
  · exact lt_irrefl _ hij.2

/-! ### Squeeze -/

/-- The candidates of a squeeze (R45). -/
theorem State.squeezeCandidates (s : State) (u : Terms) (h : s.alloc.grantOrder.Nodup) : s.SqueezeCandidates u (s.candidates u) := by
  refine ⟨fun j => ?_, (s.pairwise_victims h).filter _⟩
  rw [State.candidates, List.mem_filter, State.mem_victims]
  refine and_congr_right fun _ => ?_
  split
  · rename_i v g hj
    simp only [Bool.and_eq_true, decide_eq_true_eq, Terms.meets, List.any_eq_true, hj]
    constructor
    · rintro ⟨⟨h1, h2⟩, p, _, hp⟩
      exact ⟨v, g, rfl, h1, h2, p, hp⟩
    · rintro ⟨v', g', e, h1, h2, p, hp⟩
      cases e
      exact ⟨⟨h1, h2⟩, p, List.mem_finRange p, hp⟩
  · rename_i hno
    simp only [Bool.false_eq_true, false_iff]
    rintro ⟨v, g, e, _⟩
    exact hno v g e

/-- The set a squeeze lowers: the shortest prefix of the candidates after which the record fits, none when no prefix is enough (R46). -/
theorem State.squeezeSet_spec (s : State) (u : Terms) : ∀ (cs taken : List RecIdx),
    match s.squeezeSet u taken cs with
    | some low => ∃ k, k ≠ [] ∧ k <+: cs ∧ low = taken ++ k ∧ u.need ≤ s.projectedRoom low u ∧
        ∀ few, few ≠ [] → few <+: k → few ≠ k → ¬ u.need ≤ s.projectedRoom (taken ++ few) u
    | none => ∀ k, k ≠ [] → k <+: cs → ¬ u.need ≤ s.projectedRoom (taken ++ k) u
  | [], taken => by
    simp only [State.squeezeSet]
    intro k hk hp
    exact absurd (List.prefix_nil.mp hp) hk
  | c :: cs, taken => by
    unfold State.squeezeSet
    dsimp only
    by_cases hfit : u.need ≤ s.projectedRoom (taken ++ [c]) u
    · rw [if_pos hfit]
      dsimp only
      refine ⟨[c], by simp, ⟨cs, rfl⟩, rfl, hfit, ?_⟩
      intro few h1 h2 h3
      rcases List.prefix_cons_iff.mp h2 with e | ⟨t, e, ht⟩
      · exact absurd e h1
      · rw [List.prefix_nil.mp ht] at e
        exact absurd e h3
    · rw [if_neg hfit]
      have ih := State.squeezeSet_spec s u cs (taken ++ [c])
      split at ih
      · rename_i low hlow
        obtain ⟨k, k1, k2, k3, k4, k5⟩ := ih
        refine ⟨c :: k, by simp, List.cons_prefix_cons.mpr ⟨rfl, k2⟩, by simp [k3], k4, ?_⟩
        intro few h1 h2 h3
        rcases List.prefix_cons_iff.mp h2 with e | ⟨t, rfl, ht⟩
        · exact absurd e h1
        · by_cases ht0 : t = []
          · subst ht0
            exact hfit
          · have := k5 t ht0 ht (fun e => h3 (by rw [e]))
            simpa using this
      · rename_i hlow
        intro k h1 h2
        rcases List.prefix_cons_iff.mp h2 with e | ⟨t, rfl, ht⟩
        · exact absurd e h1
        · by_cases ht0 : t = []
          · subst ht0
            exact hfit
          · have := ih t ht0 ht
            simpa using this

/-- A list of GRANTED records lowered to their floors one after another (R46, R47). -/
theorem State.lowers : ∀ (l : List RecIdx) (s : State), l.Nodup → (∀ j ∈ l, ∃ v g, s.life j = .granted v g) →
    Lowers s l (l.foldl State.lowerToFloor s)
  | [], s, _, _ => .ended s
  | j :: rest, s, hn, hg => by
    obtain ⟨v, g, hj⟩ := hg j (by simp)
    have e : s.lowerToFloor j = (s.stage j v.floor).markStale j := by simp only [State.lowerToFloor, hj]
    have S := State.stages s j v g v.floor hj
    rw [← e] at S
    rw [List.foldl_cons]
    refine .lowered hj S (State.lowers rest _ (List.nodup_cons.mp hn).2 fun k hk => ?_)
    rw [S.otherLives k fun hkj => (List.nodup_cons.mp hn).1 (hkj ▸ hk)]
    exact hg k (by simp [hk])

/-- A squeeze for a budget-blocked record (R45, R46). -/
theorem State.squeezes (s : State) (u : Terms) (hon : ∃ p, u.onAt p = true) (h : s.alloc.grantOrder.Nodup) :
    Squeezes s u (s.squeeze u) := by
  have hc := s.squeezeCandidates u h
  unfold State.squeeze
  split
  · rename_i h1
    exact .otherClass h1
  · rename_i h1
    split
    · rename_i h2
      exact .roomComes ((s.fitsWith_iff [] u hon).mpr h2)
    · rename_i h2
      have h2' : ¬ s.FitsWith [] u := fun hf => h2 ((s.fitsWith_iff [] u hon).mp hf)
      have hs := s.squeezeSet_spec u (s.candidates u) []
      cases hlow : s.squeezeSet u [] (s.candidates u) with
      | some low =>
        rw [hlow] at hs
        obtain ⟨k, k1, k2, k3, k4, k5⟩ := hs
        rw [List.nil_append] at k3
        subst k3
        refine .lowers (by simpa using h1) h2' hc k1 k2 ((s.fitsWith_iff _ u hon).mpr k4)
          (fun few f1 f2 f3 hf => k5 few f1 f2 f3 ((s.fitsWith_iff _ u hon).mp hf)) (State.lowers _ s ?_ fun j hj => ?_)
        · exact (((s.nodup_victims h).filter _).sublist k2.sublist)
        · obtain ⟨_, v, g, e, _⟩ := (hc.1 j).mp (k2.subset hj)
          exact ⟨v, g, e⟩
      | none =>
        rw [hlow] at hs
        exact .tooLittle h2' hc fun low f1 f2 hf => hs low f1 f2 ((s.fitsWith_iff _ u hon).mp hf)

/-! ### The walk -/

/-- The condition of R41 that the model finds first is the first that holds. -/
theorem State.passesOver (s : State) (b : BayIdx) :
    match s.passOver b with
    | some r => s.PassesOver b r
    | none => s.Admissible b := by
  unfold State.passOver State.PassesOver State.Admissible
  dsimp only
  by_cases h1 : (s.bay b).blockCause = .none
  · by_cases h2 : (s.bay b).calState = .idle
    · by_cases h3 : (s.bay b).gate = .shut
      · simp [h1, h2, h3]
      · have h3' : (s.bay b).gate = .opened := by cases hg : (s.bay b).gate <;> simp_all
        by_cases h4 : s.params.closeLimit ≤ (s.bay b).closeCount
        · simp [h1, h2, h3', h4]
        · simp [h1, h2, h3', h4]
          omega
    · simp [h1, h2]
  · simp [h1]

/-- A list of records told to wait with BUDGET (R42). -/
theorem State.waitForBudget : ∀ (l : List RecIdx) (s : State), WaitForBudget s (l.foldl (fun s j => s.setWaitReason j .budget) s) l
  | [], s => ⟨fun j => by simp; rfl, rfl⟩
  | i :: rest, s => by
    rw [List.foldl_cons]
    obtain ⟨h1, h2⟩ := State.waitForBudget rest (s.setWaitReason i .budget)
    generalize List.foldl (fun s j => s.setWaitReason j WaitReason.budget) (s.setWaitReason i .budget) rest = t at *
    have hr : ∀ j, (s.setWaitReason i .budget).record j =
        { s.record j with life := if j = i then (s.life j).withReason .budget else s.life j } := by
      intro j
      by_cases hj : j = i
      · subst hj
        simp [State.setWaitReason, State.setLife]
      · simp [State.setWaitReason, State.setLife, State.record_setRecord, hj]
        rfl
    refine ⟨fun j => ?_, by rw [h2]; rfl⟩
    rw [h1 j, State.life, hr j]
    by_cases hj : j = i
    · subst hj
      by_cases hm : j ∈ rest <;> simp [hm, Life.withReason]
      cases s.life j <;> rfl
    · by_cases hm : j ∈ rest <;> simp [hm, hj]

/-- What the walk and the restore rest on: every pattern lies within its mask, and the grant order list holds GRANTED records without
repeats. -/
structure PassReady (s : State) : Prop where
  patterns : ∀ i u, (s.life i).terms? = some u → (u.value &&& ~~~u.mask) = 0#6
  nodup : s.alloc.grantOrder.Nodup
  granted : ∀ i ∈ s.alloc.grantOrder, (s.life i).isGranted = true

theorem PassReady.on {s : State} (h : PassReady s) {i : RecIdx} {u : Terms} (e : (s.life i).terms? = some u) : ∃ p, u.onAt p = true :=
  u.on_somewhere (h.patterns i u e)

/-- The walk of the wait queue (R41, R42). -/
theorem State.walks : ∀ (l : List RecIdx) (s : State), l.Nodup → (∀ i ∈ l, ∃ u r, s.life i = .waiting u r) → PassReady s →
    s.alloc.reclaiming = false → Walks s l (State.walk l s).1 (State.walk l s).2 ∧
      ((State.walk l s).2 = false → PassReady (State.walk l s).1)
  | [], s, _, _, hp, _ => ⟨.ended s, fun _ => hp⟩
  | i :: rest, s, hn, hw, hp, hr => by
    obtain ⟨u, r, hi⟩ := hw i (by simp)
    obtain ⟨hn1, hn2⟩ := List.nodup_cons.mp hn
    have hon := hp.on (i := i) (u := u) (by rw [hi]; rfl)
    have hiG : i ∉ s.alloc.grantOrder := fun h => by
      have := hp.granted i h
      rw [hi] at this
      exact Bool.false_ne_true this
    have hne : ∀ j ∈ rest, j ≠ i := fun j hj h => hn1 (h ▸ hj)
    have hneG : ∀ j ∈ s.alloc.grantOrder, j ≠ i := fun j hj h => hiG (h ▸ hj)
    have hover := s.passesOver u.bay
    unfold State.walk
    rw [hi]
    dsimp only
    cases hr' : s.passOver u.bay with
    | some r' =>
      rw [hr'] at hover
      dsimp only
      have e : s.setWaitReason i r' = s.setLife i (.waiting u r') := by simp only [State.setWaitReason, hi, Life.withReason]
      rw [e]
      have hl : ∀ j, (s.setLife i (.waiting u r')).life j = if j = i then .waiting u r' else s.life j :=
        fun j => State.life_setLife s i (.waiting u r') j
      have ih := State.walks rest (s.setLife i (.waiting u r')) hn2 (fun j hj => by
          rw [hl, if_neg (hne j hj)]
          exact hw j (by simp [hj]))
        ⟨fun j v hv => by
          rw [hl] at hv
          split at hv
          · cases hv
            exact hp.patterns i u (by rw [hi]; rfl)
          · exact hp.patterns j v hv, hp.nodup, fun j hj => by
          have hj' : j ∈ s.alloc.grantOrder := hj
          rw [hl, if_neg (hneG j hj')]
          exact hp.granted j hj'⟩ hr
      exact ⟨.over hi hover ih.1, ih.2⟩
    | none =>
      rw [hr'] at hover
      have hroom := isRoom_roomUnder s.alloc.effCeiling u s.load hon
      dsimp only
      split
      · rename_i hfit
        have A := s.admits i u r (min u.requested (s.room u)) hi hr
        have hgo : (s.admission i u (min u.requested (s.room u))).alloc.grantOrder = s.alloc.grantOrder ++ [i] := by
          rw [A.frame]
        have hrc : (s.admission i u (min u.requested (s.room u))).alloc.reclaiming = false := by
          rw [A.frame]
          exact hr
        have ih := State.walks rest _ hn2 (fun j hj => by
            rw [A.otherLives j (hne j hj)]
            exact hw j (by simp [hj]))
          ⟨fun j v hv => by
            by_cases hj : j = i
            · subst hj
              rw [A.life] at hv
              cases hv
              exact hp.patterns j u (by rw [hi]; rfl)
            · rw [A.otherLives j hj] at hv
              exact hp.patterns j v hv, by
            rw [hgo]
            exact List.nodup_append.mpr ⟨hp.nodup, by simp, by simpa using fun a ha => fun h : a = i => hiG (h ▸ ha)⟩, fun j hj => by
            rw [hgo] at hj
            rcases List.mem_append.mp hj with hj | hj
            · rw [A.otherLives j (hneG j hj)]
              exact hp.granted j hj
            · rw [List.mem_singleton.mp hj, A.life]
              rfl⟩ hrc
        exact ⟨.admitted hi hover hroom hfit A ih.1, ih.2⟩
      · rename_i hfit
        have W := State.waitForBudget (i :: rest) s
        refine ⟨.stopped hi hover hroom (by have := Nat.lt_of_not_le hfit; exact this) W (State.squeezes _ u hon ?_), fun h => ?_⟩
        · rw [W.2]
          exact hp.nodup
        · cases h

/-- The restore of a list of GRANTED records (R49, R50). -/
theorem State.restores : ∀ (l : List RecIdx) (s : State), (∀ i u, (s.life i).terms? = some u → (u.value &&& ~~~u.mask) = 0#6) →
    (∀ j ∈ l, (s.life j).isGranted = true) → Restores s l (l.foldl State.restoreOne s)
  | [], s, _, _ => .ended s
  | j :: rest, s, hp, hg => by
    rw [List.foldl_cons]
    have hj := hg j (by simp)
    cases hl : s.life j with
    | granted v g =>
      have hroom := isRoom_roomUnder s.alloc.effCeiling v s.load (v.on_somewhere (hp j v (by rw [hl]; rfl)))
      by_cases h0 : min (v.requested - g.staged) (s.room v) = 0
      · have e : s.restoreOne j = s := by simp only [State.restoreOne, hl, h0, if_true]
        rw [e]
        exact .left hl hroom h0 (State.restores rest s hp fun k hk => hg k (by simp [hk]))
      · have e : s.restoreOne j = (s.stage j (g.staged + min (v.requested - g.staged) (s.room v))).markStale j := by
          simp only [State.restoreOne, hl, if_neg h0]
        have S := State.stages s j v g (g.staged + min (v.requested - g.staged) (s.room v)) hl
        rw [← e] at S
        refine .raised hl hroom (Nat.pos_of_ne_zero h0) S (State.restores rest _ (fun k w hw => ?_) fun k hk => ?_)
        · by_cases hk : k = j
          · subst hk
            rw [S.life] at hw
            cases hw
            exact hp k v (by rw [hl]; rfl)
          · rw [S.otherLives k hk] at hw
            exact hp k w hw
        · by_cases hkj : k = j
          · subst hkj
            rw [S.life]
            rfl
          · rw [S.otherLives k hkj]
            exact hg k (by simp [hk])
    | _ => simp [hl, Life.isGranted] at hj

/-- One admission pass: the walk of the queue, and, unless it stopped, the restore of the GRANTED records in order (R40, R42, R49). -/
theorem State.passes (s : State) (hn : s.alloc.waitQueue.Nodup) (hw : ∀ i ∈ s.alloc.waitQueue, ∃ u r, s.life i = .waiting u r)
    (hp : PassReady s) (hr : s.alloc.reclaiming = false) :
    ∃ (m : State) (stop : Bool), Walks { s with alloc := { s.alloc with passDue := false } } s.alloc.waitQueue m stop ∧
      (stop = true → s.pass = m) ∧
      (stop = false → ∃ order, (∀ i, i ∈ order ↔ i ∈ m.alloc.grantOrder) ∧ order.Pairwise m.RaiseFirst ∧ Restores m order s.pass) := by
  have W := State.walks s.alloc.waitQueue { s with alloc := { s.alloc with passDue := false } } hn hw ⟨hp.patterns, hp.nodup, hp.granted⟩ hr
  refine ⟨_, _, W.1, fun h => ?_, fun h => ?_⟩
  · unfold State.pass
    dsimp only
    rw [if_pos h]
  · have P := W.2 h
    refine ⟨_, State.mem_restoreOrder _, State.pairwise_restoreOrder _ P.nodup, ?_⟩
    unfold State.pass
    dsimp only
    rw [if_neg (by simp [h])]
    exact State.restores _ _ P.patterns fun j hj => P.granted j ((State.mem_restoreOrder _ j).mp hj)

/-! ### The reclaim step -/

/-- The condition of R137 and R138 read off the model's list of positions. -/
theorem State.inExcess_iff (s : State) (u : Terms) : s.InExcess u ↔ s.unfit.any u.onAt = true := by
  simp only [State.InExcess, State.unfit, List.any_eq_true, List.mem_filter, decide_eq_true_eq]
  constructor
  · rintro ⟨p, h1, h2⟩
    exact ⟨p, ⟨List.mem_finRange p, h2⟩, h1⟩
  · rintro ⟨p, ⟨_, h2⟩, h1⟩
    exact ⟨p, h1, h2⟩

/-- The lowering walk of a list of GRANTED records (R137); every record of it stays GRANTED, and the lists stand. -/
theorem State.reclaimLowers : ∀ (l : List RecIdx) (s : State), (∀ j ∈ l, (s.life j).isGranted = true) →
    ReclaimLowers s l (l.foldl State.reclaimLower s) ∧ (l.foldl State.reclaimLower s).alloc.grantOrder = s.alloc.grantOrder ∧
      (∀ k, (l.foldl State.reclaimLower s).classOf k = s.classOf k) ∧
      ∀ k, (s.life k).isGranted = true → ((l.foldl State.reclaimLower s).life k).isGranted = true
  | [], s, _ => ⟨.ended s, rfl, fun _ => rfl, fun _ h => h⟩
  | j :: rest, s, hg => by
    rw [List.foldl_cons]
    have hj := hg j (by simp)
    cases hl : s.life j with
    | granted v g =>
      by_cases h0 : v.floor < g.staged ∧ s.unfit.any v.onAt = true
      · have e : s.reclaimLower j = (s.stage j v.floor).markStale j := by simp only [State.reclaimLower, hl, if_pos h0]
        have S := State.stages s j v g v.floor hl
        rw [← e] at S
        have hk : ∀ k, (s.life k).isGranted = true → ((s.reclaimLower j).life k).isGranted = true := by
          intro k h
          by_cases hkj : k = j
          · subst hkj
            rw [S.life]
            rfl
          · rw [S.otherLives k hkj]
            exact h
        have hc : ∀ k, (s.reclaimLower j).classOf k = s.classOf k := by
          intro k
          by_cases hkj : k = j
          · subst hkj
            rw [State.classOf, State.classOf, S.life, hl]
            rfl
          · rw [State.classOf, State.classOf, S.otherLives k hkj]
        have hgo : (s.reclaimLower j).alloc.grantOrder = s.alloc.grantOrder := by rw [S.frame]
        obtain ⟨i1, i2, i3, i4⟩ := State.reclaimLowers rest (s.reclaimLower j) fun k h => hk k (hg k (by simp [h]))
        exact ⟨.lowered hl h0.1 ((s.inExcess_iff v).mpr h0.2) S i1, i2.trans hgo, fun k => (i3 k).trans (hc k),
          fun k h => i4 k (hk k h)⟩
      · have e : s.reclaimLower j = s := by simp only [State.reclaimLower, hl, if_neg h0]
        rw [e]
        obtain ⟨i1, i2, i3, i4⟩ := State.reclaimLowers rest s fun k h => hg k (by simp [h])
        exact ⟨.left hl (fun h => h0 ⟨h.1, (s.inExcess_iff v).mp h.2⟩) i1, i2, i3, i4⟩
    | _ => simp [hl, Life.isGranted] at hj

/-- The revoke walk of a list of GRANTED records (R138). -/
theorem State.reclaimRevokes : ∀ (l : List RecIdx) (s : State), l.Nodup → (∀ j ∈ l, (s.life j).isGranted = true) →
    ReclaimRevokes s l (l.foldl State.reclaimRevoke s)
  | [], s, _, _ => .ended s
  | j :: rest, s, hn, hg => by
    rw [List.foldl_cons]
    obtain ⟨hn1, hn2⟩ := List.nodup_cons.mp hn
    have hj := hg j (by simp)
    cases hl : s.life j with
    | granted v g =>
      by_cases h0 : 0 < g.staged ∧ s.unfit.any v.onAt = true
      · have e : s.reclaimRevoke j = s.enterRetiring j .reclaim := by simp only [State.reclaimRevoke, hl, if_pos h0]
        have R := State.entersRetiring s j .reclaim v g hl
        rw [← e] at R
        refine .revoked hl h0.1 ((s.inExcess_iff v).mpr h0.2) R (State.reclaimRevokes rest _ hn2 fun k hk => ?_)
        rw [R.otherLives k fun hkj => hn1 (hkj ▸ hk)]
        exact hg k (by simp [hk])
      · have e : s.reclaimRevoke j = s := by simp only [State.reclaimRevoke, hl, if_neg h0]
        rw [e]
        exact .left hl (fun h => h0 ⟨h.1, (s.inExcess_iff v).mp h.2⟩) (State.reclaimRevokes rest s hn2 fun k hk => hg k (by simp [hk]))
    | _ => simp [hl, Life.isGranted] at hj

/-- A reclaim step: the lowering walk, then the revoke walk, over the GRANTED records in one order (R137, R138). -/
theorem State.reclaims (s : State) (hn : s.alloc.grantOrder.Nodup) (hg : ∀ i ∈ s.alloc.grantOrder, (s.life i).isGranted = true) :
    ∃ (m : State) (l : List RecIdx), (∀ i, i ∈ l ↔ i ∈ s.alloc.grantOrder) ∧ l.Pairwise s.LowerFirst ∧ ReclaimLowers s l m ∧
      ReclaimRevokes m l s.reclaimStep := by
  obtain ⟨h1, h2, h3, h4⟩ := State.reclaimLowers s.victims s fun j hj => hg j ((s.mem_victims j).mp hj)
  refine ⟨_, s.victims, s.mem_victims, s.pairwise_victims hn, h1, ?_⟩
  have e : (s.victims.foldl State.reclaimLower s).victims = s.victims := by
    simp only [State.victims] at h2 h3 ⊢
    rw [h2]
    simp only [h3]
  unfold State.reclaimStep
  dsimp only
  rw [e]
  exact State.reclaimRevokes _ _ (s.nodup_victims hn) fun j hj => h4 j (hg j ((s.mem_victims j).mp hj))

/-- Reclaiming begins, or a further reclaim step runs, under an effective ceiling that stands (R136 to R139). -/
theorem State.reclaims_begun (s : State) (hn : s.alloc.grantOrder.Nodup) (hg : ∀ i ∈ s.alloc.grantOrder, (s.life i).isGranted = true) :
    Reclaims s (if s.alloc.reclaiming then s.reclaimStep else s.beginReclaim) := by
  by_cases hr : s.alloc.reclaiming = true
  · obtain ⟨m, l, h1, h2, h3, h4⟩ := s.reclaims hn hg
    rw [if_pos hr]
    exact ⟨s, m, l, fun _ => rfl, fun h => by simp [hr] at h, h1, h2, h3, h4⟩
  · rw [if_neg hr]
    let v : State := ({ s with alloc := { s.alloc with reclaiming := true } }.raise flagReclaim).setAllWaitReasons .budget
    have hv : ∀ i, v.life i = (s.life i).withReason .budget := fun i => by
      rw [show v = _ from rfl, State.life_setAllWaitReasons]; rfl
    have ha : v.alloc.grantOrder = s.alloc.grantOrder := by
      rw [show v = _ from rfl, State.alloc_setAllWaitReasons]; rfl
    obtain ⟨m, l, h1, h2, h3, h4⟩ := v.reclaims (ha ▸ hn) fun i hi => by
      have := hg i (ha ▸ hi)
      rw [hv]
      cases hl : s.life i <;> simp_all [Life.isGranted, Life.withReason]
    refine ⟨v, m, l, fun h => absurd h hr, fun _ => ⟨v.pool.records, fun i => ?_, rfl⟩, fun i => by rw [h1 i, ha], h2, h3, h4⟩
    exact State.record_setAllWaitReasons _ _ i

/-- What the Allocator does with a recomputed effective ceiling (R33, R132, R133, R139, R140). -/
theorem State.takesEffective (s : State) (e : Nat) (hn : s.alloc.grantOrder.Nodup)
    (hg : ∀ i ∈ s.alloc.grantOrder, (s.life i).isGranted = true) : TakesEffective s e (s.setEffective e) := by
  have hf := Allocator.fits_iff { s.alloc with effCeiling := e }
  refine ⟨fun h => ?_, fun h hr hp => ?_, fun h hp => ?_, fun h hr => ?_, fun h hr hp => ?_, fun h hr hp => ?_⟩
  · simp only [State.setEffective, if_pos h]
  · have : ({ s.alloc with effCeiling := e } : Allocator).fits = true := hf.mpr hp
    simp only [State.setEffective, if_neg (Nat.ne_of_lt h), if_neg (Nat.lt_asymm h), this, if_true]
  · have hfit : ({ s.alloc with effCeiling := e } : Allocator).fits = false := by
      rw [← Bool.not_eq_true, hf]
      push Not
      exact hp
    have := State.reclaims_begun { s with alloc := { s.alloc with effCeiling := e } } hn hg
    simpa only [State.setEffective, if_neg (Nat.ne_of_lt h), if_neg (Nat.lt_asymm h), hfit, Bool.false_eq_true, if_false] using this
  · simp [State.setEffective, (Nat.ne_of_lt h).symm, h, State.evaluate, State.trigger_eq, hr]
  · have hfit : ({ s.alloc with effCeiling := e } : Allocator).fits = false := by
      rw [← Bool.not_eq_true, hf]
      push Not
      exact hp
    have he : State.evaluate { s with alloc := { s.alloc with effCeiling := e } } = { s with alloc := { s.alloc with effCeiling := e } } := by
      rw [State.evaluate, if_neg fun x => Bool.false_ne_true (hfit.symm.trans x.2)]
    rw [State.setEffective, if_neg (Nat.ne_of_lt h).symm]
    dsimp only
    rw [if_pos h, he, State.trigger, if_neg fun x => Bool.false_ne_true (x.2.symm.trans hr)]
  · have hfit : ({ s.alloc with effCeiling := e } : Allocator).fits = true := hf.mpr hp
    have he : State.evaluate { s with alloc := { s.alloc with effCeiling := e } } =
        ({ s with alloc := { s.alloc with effCeiling := e, reclaiming := false } }.raise flagReclaim).trigger := by
      rw [State.evaluate, if_pos ⟨hr, hfit⟩]
    rw [State.setEffective, if_neg (Nat.ne_of_lt h).symm]
    dsimp only
    rw [if_pos h, he]
    simp [State.trigger_eq, State.raise]

end Sys2Proof.Machine
end

