-- ==== Sys2Proof/Tests/Slice0.lean ====
section
/-!
SUPPORT. Checks of this model: the ill-formed terms that the check of Sys2Proof/WellFormed.lean refuses, bytes of both serial ports worked
out from the spec's layouts, one step of the commands on small states, and, for every statement with hypotheses, a state and operands that
meet them.
-/
namespace Sys2Proof.Tests
open Sys2Proof.Machine
set_option Elab.async false

/-! ### Small states -/

/-- The state after a command, which every command of this part has. -/
def after (o : Host.Outcome State Fault Refusal) : State :=
  match o with
  | .next t => t
  | _ => State.reset

/-- Terms of a PORT record of bay 0, on in every position: class 1, requested 100, floor 40, no lease. -/
def terms : Terms :=
  { bay := 0, origin := .port, cls := 1, requested := 100, floor := 40, mask := 0, value := 0, leaseLength := 0, taper := [], charge := 0,
    residue := 0 }

/-- A grant of 80, active and staged, without lease or taper. -/
def grant : Grant :=
  { active := 80, staged := 80, leaseLeft := none, taperState := none, strikes := 0, strikeWindowLeft := 50 }

/-- RUNNING with a ceiling of 2000 and every record FREE. -/
def running : State :=
  { State.reset with
    alloc := { Allocator.reset with ceiling := 2000, effCeiling := 2000, opState := .running }
    timer := { Timer.reset with running := true } }

/-- Record 0 in a life on bay 0, everything else as `running` has it: on its list, in the loads, and its bay's entry. -/
def holding (l : Life) : State :=
  let s : State := { running with
    pool := { Pool.reset with freeList := (List.finRange 48).tail }
    alloc := { running.alloc with
      loads := Vector.ofFn fun p => l.loadAt p
      waitQueue := if l.isWaiting then [0] else []
      grantOrder := if l.isGranted then [0] else [] } }
  (s.setLife 0 l).setBay 0 { Bay.reset with
    record := if l.liveTerms?.isSome then some 0 else none
    lastSpent := if l.liveTerms?.isSome then none else some 0
    enable := if l.holdsLoad then .closed else .opened }

def waiting : State := holding (.waiting terms .none)
def granted : State := holding (.granted terms grant)
def retiring : State := holding (.retiring terms 80 .released 20)
def spent : State := holding (.spent terms .released false)

/-- A state whose timer stands one millisecond before a boundary. -/
def due (s : State) : State :=
  { s with timer := { s.timer with ms := 99 } }

/-- A state with a part of a boundary outstanding, which found the records as they stand. -/
def leaving (p : BoundaryPart) (s : State) : State :=
  { s with timer := { s.timer with outstanding := [p], found := Vector.ofFn s.heldHandle } }

/-- A state with a part of a boundary outstanding, which found no GRANTED or RETIRING record. -/
def unfound (p : BoundaryPart) (s : State) : State :=
  { s with timer := { s.timer with outstanding := [p] } }

/-- The end of a conversion whose requests take part in the choice, and one whose requests come after it. -/
def reads (raw : Int) : Instr := .conversionEnd { raw := raw, late := false }
def readsLate (raw : Int) : Instr := .conversionEnd { raw := raw, late := true }

/-- A state in the middle of a visit of bay 0. -/
def visited (s : State) : State :=
  { s with link := { s.link with phase := .reply } }

/-- A state with a conversion in progress. -/
def converting (k : ConvKind) (c : Channel) (s : State) : State :=
  { s with sampler := { s.sampler with current := some { kind := k, channel := c } } }

/-- A state with a pass due. -/
def ready (s : State) : State :=
  { s with alloc := { s.alloc with passDue := true } }

/-- An OPEN window on record 0 in which nothing is changed. -/
def unchanged : EditWindow :=
  { handle := 0
    copy := { cls := 1, requested := 100, floor := 40, mask := 0, value := 0, leaseLength := 0, taper := [] }
    changed := { cls := false, requested := false, floor := false, leaseLength := false, pattern := false, taper := false }
    stale := false }

/-- The window with its class rewritten, with the floor 101, with the floor 81, and with the requested value 40. -/
def classed : EditWindow :=
  { unchanged with changed := { unchanged.changed with cls := true } }
def floor101 : EditWindow :=
  { unchanged with copy := { unchanged.copy with floor := 101 }, changed := { unchanged.changed with floor := true } }
def floor81 : EditWindow :=
  { unchanged with copy := { unchanged.copy with floor := 81 }, changed := { unchanged.changed with floor := true } }
def requested40 : EditWindow :=
  { unchanged with copy := { unchanged.copy with requested := 40 }, changed := { unchanged.changed with requested := true } }

/-- A state with an OPEN window. -/
def window (s : State) (w : EditWindow) : State :=
  { s with pool := { s.pool with edit := some w } }

/-! ### What the well-formedness check refuses -/

theorem test_wf_argument_count : (Instr.start (List.replicate 256 0)).wf = false := by decide +kernel
theorem test_wf_graceful_with_mode_immediate : (Instr.retireGraceful [0, 0, 1]).wf = false := by decide
theorem test_wf_immediate_with_mode_graceful : (Instr.retireImmediate [0, 0, 0]).wf = false := by decide
theorem test_wf_bad_command_with_a_command_code : (Instr.badCommand 35 []).wf = false := by decide
theorem test_wf_bad_command_argument_count : (Instr.badCommand 36 (List.replicate 256 0)).wf = false := by decide +kernel
theorem test_wf_abort_of_a_complete_transaction : (Instr.transactionAbort [1, 0]).wf = false := by decide
theorem test_wf_boundary_part_twice : (Instr.periodBoundary [.closeWindow, .closeWindow]).wf = false := by decide
theorem test_wf_reading_out_of_range : (reads 4001).wf = false := by decide
theorem test_wf_accepts : [Instr.start [], .retireGraceful [0, 0, 0], .retireImmediate [0, 0, 1], .badCommand 36 [], .transactionAbort [1],
    .periodBoundary boundaryParts, reads (-100)].all Instr.wf = true := by decide +kernel

/-! ### Bytes -/

theorem test_crc_of_the_check_string :
    crc16 [0x31, 0x32, 0x33, 0x34, 0x35, 0x36, 0x37, 0x38, 0x39] = 0x29B1 := by decide +kernel
theorem test_transaction_spells_alloc : transact [11, 9, 2, 1, 0, 100, 0, 40, 0, 0, 0] = .alloc [2, 1, 0, 100, 0, 40, 0, 0, 0] := by decide
theorem test_silence_is_an_expiry : receive 3 [] = .replyWindowExpiry := by decide
theorem test_report_release : receive 2 ((frameOf 2 2 [4, 0, 64]).map fun b => ⟨0, b⟩) = .release 64 := by decide +kernel
theorem test_ident : (after (exec (.identRead []) State.reset)).reply = some { code := .ok, body := [0x5E, 0x20, 0x06, 0x54, 0x20] } := by
  decide +kernel

/-! ### One step -/

theorem test_alloc_creates_waiting :
    let t := after (exec (.alloc [0, 1, 0, 100, 0, 40, 0, 0, 0]) running)
    t.life 0 = .waiting terms .none ∧ t.alloc.waitQueue = [0] ∧ t.alloc.passDue = true ∧ t.reply = some { code := .ok, body := [0, 0] } := by
  decide +kernel
theorem test_alloc_floor_above_requested :
    after (exec (.alloc [0, 1, 0, 100, 0, 101, 0, 0, 0]) running) = running.refuse .badArg := by decide +kernel
theorem test_pass_admits :
    let t := after (exec .admissionPass (ready waiting))
    t.life 0 = .granted terms { grant with active := 0, staged := 100 } ∧ t.load 63 = 100 ∧ (t.bay 0).enable = .closed ∧
      t.alloc.grantOrder = [0] := by
  decide +kernel
theorem test_boundary_activates :
    let t := after (exec (.periodBoundary []) (due (holding (.granted terms { grant with active := 0 }))))
    t.life 0 = .granted terms { grant with strikeWindowLeft := 49 } ∧ (t.bay 0).limit = 80 ∧ (t.bay 0).stagedDuty = 126 ∧
      t.timer.position = 1 := by
  decide +kernel
theorem test_tick : (after (exec .millisecondTick running)).timer.ms = 1 := by decide +kernel
theorem test_retire_graceful :
    (after (exec (.retireGraceful [0, 0, 0]) granted)).life 0 = .retiring terms 80 .retiredByPort 20 := by decide +kernel
theorem test_retire_immediate :
    (after (exec (.retireImmediate [0, 0, 1]) granted)).life 0 = .spent terms .retiredByPort false := by decide +kernel
theorem test_reclaim :
    let t := after (exec (.reclaim [0, 0]) spent)
    t.record 0 = { generation := 1, life := .free } ∧ t.pool.freeList.getLast? = some 0 ∧ t.handle 0 = 64 := by decide +kernel
theorem test_third_strike_revokes :
    (after (exec (reads 200) (converting .confirm 0 (holding (.granted terms { grant with strikes := 2 }))))).life 0 =
      .retiring terms 80 .overdraw 20 := by decide +kernel
theorem test_ramp_end :
    (after (exec (reads 5) (converting .scan 0 retiring))).life 0 = .spent terms .released false := by decide +kernel
theorem test_result_that_ends_the_ramp_is_counted :
    let s := retiring.modBay 0 fun y => { y with sumOwner := some 0, periodSum := 268, periodCount := 4 }
    let t := after (exec (reads 3) (converting .scan 0 s))
    t.life 0 = .spent terms .released false ∧ (t.bay 0).periodSum = 271 ∧ (t.bay 0).periodCount = 5 := by decide +kernel
theorem test_boundary_drops_the_claim_of_a_spent_record :
    let s := spent.modBay 0 fun y => { y with sumOwner := some 0, periodSum := 271, periodCount := 5 }
    let t := after (exec (.periodBoundary []) (due s))
    t.life 0 = s.life 0 ∧ (t.bay 0).periodSum = 0 ∧ (t.bay 0).periodCount = 0 ∧ (t.bay 0).sumOwner = some 0 := by decide +kernel
theorem test_ramp_timeout_forces_open :
    let t := after (exec (.rampTimeout 0) (leaving (.bay 0) (holding (.retiring terms 80 .released 1))))
    t.life 0 = .spent terms .released true ∧ (t.bay 0).blockCause = .forcedOpen ∧ (t.bay 0).enable = .opened := by decide +kernel
theorem test_stray_confirmed_blocks :
    ((after (exec (reads 11) (converting .confirm 0 running))).bay 0).blockCause = .stray := by decide +kernel
theorem test_feed_trip :
    let t := after (exec (reads 2051) (converting .confirm 16 granted))
    t.alloc.opState = .trip ∧ t.life 0 = .spent terms .trip false ∧ t.load 0 = 0 := by decide +kernel
theorem test_ceiling_fall_lowers_to_floor :
    let t := after (exec (.ceilingWrite [0, 60]) (holding (.granted terms { grant with active := 0 })))
    t.life 0 = .granted terms { grant with active := 0, staged := 40 } ∧ t.alloc.reclaiming = false := by decide +kernel
theorem test_ceiling_fall_revokes :
    let t := after (exec (.ceilingWrite [0, 30]) granted)
    t.life 0 = .retiring terms 80 .reclaim 20 ∧ t.alloc.reclaiming = true := by decide +kernel
theorem test_temp_moves_zone :
    let t := after (exec (reads 26) (converting .scan 17 running))
    t.thermal = { filtered := some 26, zone := .warm } ∧ t.alloc.effCeiling = 1500 := by decide +kernel
theorem test_zone_fall_begins_reclaiming :
    let s := { granted with alloc := { granted.alloc with ceiling := 100, effCeiling := 100 } }
    let t := after (exec (reads 26) (converting .scan 17 s))
    t.alloc.effCeiling = 75 ∧ t.alloc.reclaiming = true ∧ t.life 0 = .granted terms { grant with staged := 40 } ∧
      t.attention.flags.get flagReclaim = .raisedUnseen := by decide +kernel
theorem test_zone_rise_ends_reclaiming :
    let s := { granted with
      thermal := { filtered := some 26, zone := .warm }
      alloc := { granted.alloc with ceiling := 100, effCeiling := 75, reclaiming := true } }
    let t := after (exec (reads 20) (converting .scan 17 s))
    t.alloc.effCeiling = 100 ∧ t.alloc.reclaiming = false ∧ t.alloc.passDue = true ∧
      t.attention.flags.get flagReclaim = .raisedUnseen := by decide +kernel
theorem test_commit_that_lowers_the_load_is_a_trigger :
    let s := window (holding (.granted terms { grant with active := 0 })) requested40
    let t := after (exec (.editCommit []) { s with alloc := { s.alloc with effCeiling := 50, reclaiming := true } })
    t.load 0 = 40 ∧ t.alloc.reclaiming = false ∧ t.alloc.passDue = true ∧
      t.attention.flags.get flagReclaim = .raisedUnseen := by decide +kernel
theorem test_lookup_of_a_waiting_record :
    (after (exec (.lookupHandle [0, 0]) waiting)).reply = some {
      code := .ok, body := [0, 0, 1, 0, 19, 0, 1, 1, 0, 100, 0, 40] ++ List.replicate 21 0 } := by decide +kernel
theorem test_clock_loss_holds :
    let t := after (exec (.checkWindowEnd 29999) { running with clock := { Clock.reset with state := .reference } })
    t.alloc.opState = .hold ∧ t.clock.state = .fallback := by decide +kernel
theorem test_ask_is_answered :
    let t := after (exec (.ask 1 100 40 5 0 0) (visited running))
    t.life 0 = .waiting { terms with origin := .link, leaseLength := 5 } .none ∧
      (t.bay 0).answer = some { code := .accepted, handle := 0 } := by decide +kernel
theorem test_third_miss_is_absent :
    ((after (exec .badFrame (visited (running.setBay 0 { Bay.reset with presence := .present, missCount := 2 })))).bay 0).presence =
      .absent := by decide +kernel
theorem test_poll_of_the_first_visit :
    (after (exec .pollSend State.reset)).link.lastPoll = some (frameOf 1 0 [0, 255, 255, 0, 0, 0, 0, 255, 255]) := by decide +kernel
theorem test_restart_frees :
    let t := after (exec (.restart []) granted)
    t.record 0 = { generation := 1, life := .free } ∧ t.alloc.opState = .standby ∧ t.load 5 = 0 := by decide +kernel
theorem test_step_takes_front :
    (after (step { running with pending := [.holdSet [], .pollSend] })).pending = [.pollSend] := by decide +kernel
theorem test_opened_and_closed_line_is_low :
    let t := after (exec .admissionPass (ready (waiting.modBay 0 fun y => { y with inEffectDuty := 126 })))
    (t.bay 0).enable = .closed ∧ (t.bay 0).limitLine 0 = false := by decide +kernel
theorem test_commit_raises_edit_stale :
    let t := after (exec (.editCommit []) (window granted requested40))
    t.life 0 = .granted { terms with requested := 40 } { grant with staged := 40 } ∧ t.pool.edit = none ∧
      t.attention.flags.get flagEditStale = .raisedUnseen := by decide +kernel
theorem test_boundary_does_not_step_a_record_admitted_after_it :
    let s := unfound (.bay 0) (holding (.granted { terms with leaseLength := 1 } { grant with active := 0, leaseLeft := some 1 }))
    let t := after (exec .millisecondTick s)
    t.life 0 = s.life 0 ∧ after (exec (.leaseEnd 0) s) = s ∧ t.timer.outstanding = [] := by decide +kernel
theorem test_calibrations_interleave :
    let both := fun y : Bay => { y with calState := .sampling }
    let s := converting .calibration 0 ((running.modBay 0 both).modBay 1 both)
    let waits := { s with sampler := { s.sampler with calRequests := [1] } }
    (after (exec (readsLate 0) waits)).sampler.current = some { kind := .calibration, channel := 1 } ∧
      (after (exec (readsLate 0) waits)).sampler.calRequests = [0] ∧
      (after (exec (reads 0) waits)).sampler.current = some { kind := .calibration, channel := 0 } := by decide +kernel
theorem test_return_with_the_end_of_a_window :
    let s : State := { running with clock := { Clock.reset with state := .fallback, windowFresh := true } }
    (after (exec (.clockReturn ⟨[], true⟩) s)).clock.windowPredatesReturn = false ∧
      (after (exec (.clockReturn ⟨[], false⟩) s)).clock.windowPredatesReturn = true ∧
      (after (exec (.clockReturn ⟨[], true⟩) (after (exec .signalPeriodStart s)))).clock.windowPredatesReturn = true := by decide +kernel
theorem test_line_of_a_byte :
    lineBits 0xC3 = [.start, .data true, .data true, .data false, .data false, .data false, .data false, .data true, .data true, .stop] ∧
      byteOfLine (lineBits 0xC3) = some 0xC3 := by decide
theorem test_port_bits_spell_start :
    transactBits [false, false, false, false, false, false, false, true, false, false, false, false, false, false, false, false, true] =
      .start [] := by decide
theorem test_idle : step State.reset = .next State.reset := rfl

/-! ### Witnesses: a state and operands that meet the hypotheses of each clause of each statement -/

theorem life_holding (l : Life) (i : RecIdx) : (holding l).life i = if i = 0 then l else .free := by
  have h : ∀ (s : State) (b : BayIdx) (y : Bay), (s.setBay b y).life i = s.life i := fun _ _ _ => rfl
  unfold holding
  dsimp only
  rw [h, State.life_setLife]
  congr 1
  simp [State.life, State.record, Pool.reset, Vector.get_eq_getElem]

theorem test_witness_StepTakesFront :
    ({ running with pending := [.pollSend] } : State).pending = .pollSend :: [] ∧ State.reset.pending = [] := ⟨rfl, rfl⟩

theorem test_witness_StartTaken :
    running.alloc.opState ≠ .standby ∧ (State.reset.alloc.opState = .standby ∧ State.reset.thermal.zone ≠ .critical) ∧
      let s : State := { State.reset with thermal := { filtered := some 35, zone := .critical } }
      s.alloc.opState = .standby ∧ s.thermal.zone = .critical := by decide

theorem test_witness_StopTaken :
    State.reset.alloc.opState = .standby ∧ (granted.alloc.opState ≠ .standby ∧ ∃ i, (granted.life i).holdsLoad = true) ∧
      (waiting.alloc.opState ≠ .standby ∧ ∀ i, (waiting.life i).holdsLoad = false) ∧ waiting.timer.outstanding = [] := by
  decide +kernel

theorem test_witness_RestartTaken : granted.timer.outstanding = [] := rfl

theorem test_witness_HoldAndResumeTaken :
    let held : State := { running with alloc := { running.alloc with opState := .hold, holdPort := true } }
    let tripped : State := { running with alloc := { running.alloc with opState := .trip } }
    held.alloc.holdPort = true ∧ (State.reset.alloc.holdPort = false ∧ State.reset.alloc.opState ≠ .running) ∧
      (running.alloc.holdPort = false ∧ running.alloc.opState = .running) ∧
      (held.alloc.opState = .hold ∧ held.alloc.holdClock = false) ∧
      (tripped.alloc.opState = .trip ∧ tripped.thermal.zone ≠ .critical) ∧ running.alloc.opState ≠ .trip ∧
      ({ tripped with thermal := { filtered := some 35, zone := .critical } } : State).thermal.zone = .critical ∧
      let both : State := { held with alloc := { held.alloc with holdClock := true } }
      both.alloc.holdPort = true ∧ both.alloc.holdClock = true := by decide

theorem test_witness_WrongCountRefused :
    ([0] : List Byte).length ≠ 0 ∧ ([] : List Byte).length ≠ 1 ∧ ([0] : List Byte).length ≠ 2 ∧ ([0, 0] : List Byte).length ≠ 3 ∧
      (List.replicate 8 (0 : Byte)).length ≠ 9 ∧ ([2, 0, 1, 1] : List Byte).length ≠ 1 + 3 * (([2, 0, 1, 1] : List Byte).headD 0).toNat ∧
      Instr.clockReturn ⟨[0], true⟩ ∈ [Instr.clockReturn ⟨[0], true⟩, .identRead [0]] := by decide

/-- Warm zone at code 26, with the effective ceiling that goes with it. -/
def warm : State :=
  { State.reset with
    thermal := { filtered := some 26, zone := .warm }, alloc := { Allocator.reset with ceiling := 2000, effCeiling := 1500 } }

theorem test_witness_ConfigWriteTaken :
    (parameterRanges[0]? = some (20, 1000) ∧ ¬ (20 ≤ u16 0 19) ∧ ¬ (u16 3 233 ≤ 1000)) ∧ parameterRanges[18]? = none ∧
      (20 ≤ u16 0 20 ∧ u16 3 232 ≤ 1000 ∧ running.alloc.opState ≠ .standby) ∧
      (parameterRanges[11]? = some (0, 63) ∧ u16 0 30 ≤ 63 ∧ warm.alloc.opState = .standby ∧
        ¬ (u16 0 30 < warm.params.hotCode)) ∧
      (warm.thermal.zone = zoneOf warm.params warm.thermal.filtered ∧
        zoneOf { warm.params with warmCode := u16 0 26 } warm.thermal.filtered = warm.thermal.zone) ∧
      zoneOf { warm.params with warmCode := u16 0 27 } warm.thermal.filtered ≠ warm.thermal.zone ∧ warm.alloc.reclaiming = false ∧
      (∀ q, warm.load q = 0) ∧ warm.alloc.effCeiling = warm.alloc.ceiling * warm.thermal.zone.factor / 100 := by decide +kernel

theorem test_witness_ConfigWriteTaken_orderings :
    ordered (warm.params.values.set 11 (u16 0 29)) ∧ ¬ ordered (warm.params.values.set 11 (u16 0 30)) := by
  unfold ordered; decide +kernel

theorem test_witness_CeilingWriteTaken :
    2500 < u16 9 197 ∧ u16 9 196 ≤ 2500 ∧ granted.thermal.zone.factor = 100 ∧
      u16 7 208 = granted.alloc.effCeiling ∧
      (u16 0 80 < granted.alloc.effCeiling ∧ granted.alloc.reclaiming = false ∧ ∀ p, granted.load p ≤ u16 0 80) ∧
      granted.alloc.effCeiling < u16 7 209 ∧
      let s : State := { granted with alloc := { granted.alloc with ceiling := 10, effCeiling := 10, reclaiming := true } }
      s.alloc.effCeiling < u16 0 79 ∧ s.alloc.reclaiming = true ∧ (∃ p, u16 0 79 < s.load p) ∧ ∀ p, s.load p ≤ u16 0 80 := by
  decide +kernel

theorem test_witness_listsExact : granted.ListsExact ∧ waiting.ListsExact ∧ retiring.ListsExact ∧ spent.ListsExact := by
  refine ⟨⟨⟨?_, ?_⟩, ⟨?_, ?_, ?_⟩, ?_, ?_⟩, ⟨⟨?_, ?_⟩, ⟨?_, ?_, ?_⟩, ?_, ?_⟩, ⟨⟨?_, ?_⟩, ⟨?_, ?_, ?_⟩, ?_, ?_⟩, ⟨?_, ?_⟩, ⟨?_, ?_, ?_⟩,
    ?_, ?_⟩ <;> decide +kernel

theorem test_witness_CeilingFallReclaims :
    u16 0 79 ≤ 2500 ∧ u16 0 79 * granted.thermal.zone.factor / 100 < granted.alloc.effCeiling ∧
      (∃ p, u16 0 79 * granted.thermal.zone.factor / 100 < granted.load p) ∧ granted.ListsExact ∧ granted.alloc.reclaiming = false ∧
      ({ granted with alloc := { granted.alloc with reclaiming := true } } : State).alloc.reclaiming = true :=
  ⟨by decide, by decide +kernel, by decide +kernel, test_witness_listsExact.1, by decide +kernel, rfl⟩

theorem test_witness_BayGateAndUnblockTaken :
    1 < (2 : Byte).toNat ∧ (1 : Byte).toNat ≤ 1 ∧
      (let s := running.setBay 15 { Bay.reset with gate := .shut }
       s.alloc.opState = .running ∧ s.alloc.reclaiming = false ∧ (0 : Byte).toNat = 0 ∧
          ∃ b : BayIdx, (u16 128 0).testBit b.val = true ∧ (s.bay b).gate = .shut) ∧
      15 < (16 : Byte).toNat ∧ (running.bay 15).blockCause = .none ∧
      let s := running.setBay 15 { Bay.reset with blockCause := .stray, latestSample := 11 }
      let q := running.setBay 15 { Bay.reset with blockCause := .forcedOpen, latestSample := 10 }
      ((s.bay 15).blockCause ≠ .none ∧ s.params.strayThreshold < (s.bay 15).latestSample) ∧
        (q.bay 15).blockCause ≠ .none ∧ (q.bay 15).latestSample ≤ q.params.strayThreshold := by decide +kernel

theorem test_witness_HandlesResolved :
    (∀ i : RecIdx, u16 0 48 ≠ (State.reset.record i).generation.val * 64 + i.val) ∧
      (State.reset.handle 47 = u16 0 47 ∧ State.reset.life 47 = .free) ∧
      (spent.handle 0 = u16 0 0 ∧ spent.life 0 = .spent terms .released false) ∧ 15 < (16 : Byte).toNat ∧
      (State.reset.bay 15).record = none ∧ (granted.bay 0).record = some 0 ∧ granted.life 0 = .granted terms grant := by decide +kernel

theorem test_witness_requestInRange :
    requestInRange 3 (u16 2 118) (u16 2 118) 63 63 ∧ requestInRange 0 1 0 0 0 ∧ ¬ requestInRange 4 1 0 0 0 ∧
      ¬ requestInRange 0 631 0 0 0 ∧ ¬ requestInRange 0 0 0 0 0 ∧ ¬ requestInRange 0 1 2 0 0 ∧ ¬ requestInRange 0 1 0 64 0 ∧
      ¬ requestInRange 0 1 0 0 1 :=
  ⟨⟨by decide, by decide, by decide, by decide, by decide, by decide, fun _ h => h⟩,
    ⟨by decide, by decide, by decide, by decide, by decide, by decide, fun _ h => h⟩, fun h => absurd h.1 (by decide),
    fun h => absurd h.2.2.1 (by decide), fun h => absurd h.2.1 (by decide), fun h => absurd h.2.2.2.1 (by decide),
    fun h => absurd h.2.2.2.2.1 (by decide), fun h => absurd (h.2.2.2.2.2.2 0 (by decide)) (by decide)⟩

theorem test_witness_AllocTaken :
    15 < (16 : Byte).toNat ∧ (15 : Byte).toNat < 16 ∧ requestInRange (3 : Byte).toNat (u16 2 118) (u16 2 118) (63 : Byte).toNat
        (63 : Byte).toNat ∧ (granted.bay 0).record ≠ none ∧ (running.bay 15).record = none ∧
      ({ running with pool := { running.pool with freeList := [] } } : State).pool.freeList = [] ∧
      running.pool.freeList = 0 :: (List.finRange 48).tail :=
  ⟨by decide, by decide, test_witness_requestInRange.1, by decide +kernel, by decide +kernel, rfl, by decide +kernel⟩

theorem test_witness_lives :
    (waiting.handle 0 = u16 0 0 ∧ waiting.life 0 = .waiting terms .none) ∧
      (granted.handle 0 = u16 0 0 ∧ granted.life 0 = .granted terms grant) ∧
      (retiring.handle 0 = u16 0 0 ∧ retiring.life 0 = .retiring terms 80 .released 20) ∧
      (spent.handle 0 = u16 0 0 ∧ spent.life 0 = .spent terms .released false) := by decide +kernel

theorem test_witness_RetireTaken :
    granted.handle 0 = u16 0 0 ∧ waiting.life 0 = .waiting terms .none ∧ granted.life 0 = .granted terms grant ∧
      retiring.life 0 = .retiring terms 80 .released 20 ∧ 1 < (2 : Byte).toNat := by decide +kernel

theorem test_witness_ReclaimTaken :
    granted.handle 0 = u16 0 0 ∧ (∀ u c f, granted.life 0 ≠ .spent u c f) ∧ spent.handle 0 = u16 0 0 ∧
      spent.life 0 = .spent terms .released false :=
  by
  refine ⟨by decide +kernel, ?_, by decide +kernel, by decide +kernel⟩
  rw [test_witness_lives.2.1.2]
  intro u c f h
  cases h

theorem test_witness_RenewTaken :
    let leased := holding (.granted { terms with leaseLength := 1 } { grant with leaseLeft := some 1 })
    (∀ i : RecIdx, State.reset.handle i ≠ u16 0 48) ∧ State.reset.life 1 = .free ∧ spent.life 0 = .spent terms .released false ∧
      waiting.life 0 = .waiting terms .none ∧ (granted.life 0 = .granted terms grant ∧ terms.leaseLength = 0) ∧
      (leased.handle 0 = u16 0 0 ∧ leased.life 0 = .granted { terms with leaseLength := 1 } { grant with leaseLeft := some 1 }) ∧
      retiring.life 0 = .retiring terms 80 .released 20 := by decide +kernel

theorem test_witness_EditOpenTaken :
    retiring.life 0 = .retiring terms 80 .released 20 ∧ waiting.life 0 = .waiting terms .none ∧ granted.life 0 = .granted terms grant ∧
      (window granted unchanged).pool.edit ≠ none ∧ (window granted unchanged).life 0 = .granted terms grant ∧ granted.pool.edit = none := by
  decide +kernel

theorem test_witness_EditPutAndTaperTaken :
    4 < (5 : Byte).toNat ∧ 3 < u16 0 4 ∧ u16 0 0 = 0 ∧ 630 < u16 2 119 ∧ 255 < u16 1 0 ∧ 63 < (64 : Byte).toNat ∧ u16 0 3 < 4 ∧
      u16 2 118 ≤ 630 ∧ u16 0 255 ≤ 255 ∧ granted.pool.edit = none ∧ (window granted unchanged).pool.edit.isSome = true ∧
      8 < (List.replicate 9 ((0, 0, 1) : Byte × Byte × Byte)).length ∧
      ((List.replicate 8 ((2, 118, 1) : Byte × Byte × Byte)).all fun x => decide (u16 x.1 x.2.1 ≤ 630 ∧ 1 ≤ x.2.2.toNat)) = true ∧
      ¬ (u16 2 119 ≤ 630 ∧ 1 ≤ (1 : Byte).toNat) ∧ ¬ (1 ≤ (0 : Byte).toNat) := by
  refine ⟨?_, ?_, ?_, ?_, ?_, ?_, ?_, ?_, ?_, ?_, ?_, ?_, ?_, ?_, ?_⟩ <;> decide +kernel

theorem test_witness_EditWindowClosed :
    granted.pool.edit = none ∧ (window granted { unchanged with stale := true }).pool.edit = some { unchanged with stale := true } ∧
      (unchanged.stale = false ∧ unchanged.changed =
        { cls := false, requested := false, floor := false, leaseLength := false, pattern := false, taper := false }) ∧
      (floor101.stale = false ∧ floor101.changed.any = true ∧ (window waiting floor101).handle 0 = floor101.handle ∧
        (window waiting floor101).life 0 = .waiting terms .none ∧
        (terms.changed floor101.changed floor101.copy).requested < (terms.changed floor101.changed floor101.copy).floor) ∧
      ((window granted classed).life 0 = .granted terms grant ∧ classed.changed.any = true ∧ classed.changed.cls = true) ∧
      floor81.changed.cls = false ∧ floor81.changed.pattern = false ∧
        min grant.staged (terms.changed floor81.changed floor81.copy).requested < (terms.changed floor81.changed floor81.copy).floor := by
  decide +kernel

theorem test_witness_EditCommitApplied :
    let v := terms.changed requested40.changed requested40.copy
    let w := terms.changed classed.changed classed.copy
    ((window granted requested40).pool.edit = some requested40 ∧ requested40.stale = false ∧ requested40.changed.any = true ∧
        (window granted requested40).handle 0 = requested40.handle ∧ (window granted requested40).life 0 = .granted terms grant) ∧
      (v.floor ≤ v.requested ∧ (∀ k : Fin 6, v.value.getLsbD k = true → v.mask.getLsbD k = true) ∧ (v.leaseLength = 0 → v.origin = .port) ∧
        requested40.changed.cls = false ∧ requested40.changed.pattern = false ∧ v.floor ≤ min grant.staged v.requested) ∧
      ((window waiting classed).life 0 = .waiting terms .none ∧ classed.changed.cls = true ∧ w.floor ≤ w.requested) ∧
      ((window waiting requested40).life 0 = .waiting terms .none ∧ requested40.changed.cls = false) ∧
      (window waiting classed).alloc.opState = .running ∧ (window waiting classed).alloc.reclaiming = false := by
  decide +kernel

theorem test_witness_ReportsOnlyReply :
    15 < (16 : Byte).toNat ∧ (15 : Byte).toNat < 16 ∧ 17 < (18 : Byte).toNat ∧ (17 : Byte).toNat < 18 ∧
      (∀ i ∈ waiting.alloc.waitQueue, waiting.life i = .waiting terms .none) ∧ waiting.alloc.waitQueue = [0] ∧
      (∀ i ∈ granted.alloc.grantOrder, granted.life i = .granted terms grant) ∧ granted.alloc.grantOrder = [0] := by decide +kernel

theorem test_witness_CalStartAndSampleRequestTaken :
    (15 : Byte).toNat < 16 ∧
      (({ running with alloc := { running.alloc with opState := .trip } } : State).alloc.opState = .trip ∧
        ((granted.bay 0).record = some 0 ∧ (granted.life 0).holdsLoad = true) ∧ (granted.bay 0).enable = .closed ∧
        ((running.setBay 15 { Bay.reset with calState := .sampling }).bay 15).calState ≠ .idle) ∧
      (running.alloc.opState ≠ .trip ∧ (running.bay 15).record = none ∧ (running.bay 15).enable ≠ .closed ∧
        (running.bay 15).calState = .idle) ∧
      (17 : Channel) ∈ ({ Sampler.reset with portRequests := [17] } : Sampler).portRequests ∧
      (converting .port 17 running).sampler.current = some { kind := .port, channel := 17 } ∧
      (17 : Channel) ∉ running.sampler.portRequests ∧ running.sampler.current = none := by decide +kernel

theorem test_witness_TransactionsSpellCommands :
    (List.replicate 255 (0 : Byte)).length ≤ 255 ∧
      (1 ≤ (1 : Byte).toNat ∧ 1 ≤ (35 : Byte).toNat ∧ (35 : Byte).toNat - 1 < portCommands.length) ∧
      ((0 : Byte).toNat = 0 ∧ 36 ≤ (36 : Byte).toNat ∧ 36 ≤ (255 : Byte).toNat) ∧ ([1] : List Byte).length < 2 ∧
      ([16, 2, 0] : List Byte) = 16 :: 2 :: [0] ∧ ([0] : List Byte).length < (2 : Byte).toNat ∧ ([true] : List Bool).length < 8 := by
  refine ⟨?_, ?_, ?_, ?_, ?_, ?_, ?_⟩ <;> decide +kernel

/-- The bytes of a RELEASE of handle 64 from bay 15, with these check bytes, each within a byte-time. -/
def releaseBytes (check : Half) : List RxByte :=
  (0xC3 :: byteOf (32 + 15) :: ([4, 0, 64] ++ be16 check.toNat)).map fun b => ⟨40, b⟩

theorem test_witness_FramesOnTheLink :
    let check := crc16 (byteOf (32 + 15) :: [4, 0, 64])
    (∀ r ∈ (releaseBytes check).tail, r.gap ≤ 40) ∧
      (releaseBytes check).map RxByte.byte = 0xC3 :: byteOf (32 + (15 : BayIdx).val) :: ([4, 0, 64] ++ be16 check.toNat) ∧
      (∃ hh hl : Byte, [4, 0, 64] = [4, hh, hl] ∧ Instr.release 64 = .release (hh ++ hl)) ∧ check + 1 ≠ check ∧
      ((running.pollFrame 3).map fun b => (⟨0, b⟩ : RxByte)).map RxByte.byte = running.pollFrame 3 :=
  ⟨by decide +kernel, by decide +kernel, ⟨0, 64, rfl, rfl⟩, by decide +kernel, by decide +kernel⟩

theorem test_witness_AttentionLineFollowsFlags : State.reset.attention.enables.getLsbD (21 : Flag).val = true := by decide

/-- A Clock Monitor in FALLBACK with a return pending. -/
def returning (good : Nat) (predates : Bool) : State :=
  { running with clock := { Clock.reset with
      state := .fallback, returnPending := true, goodWindows := good, windowPredatesReturn := predates } }

theorem test_witness_CheckWindowJudged :
    let p := Params.reset
    let n := fun cycles : Nat => min 65535 (Clock.reset.windowCycles + cycles)
    (State.reset.clock.state ≠ .fallback ∧ (returning 0 false).clock.state = .fallback ∧ (returning 0 false).clock.returnPending = true ∧
        ({ Clock.reset with state := .fallback } : Clock).returnPending = false ∧
        ({ Clock.reset with windowFresh := true } : Clock).windowFresh = true) ∧
      (State.reset.clock.state = .starting ∧ ({ Clock.reset with state := .reference } : Clock).state = .reference) ∧
      (p.bandLow ≤ n 30000 ∧ n 30000 ≤ p.bandHigh ∧ p.bandLow ≤ n 32500 ∧ n 32500 ≤ p.bandHigh ∧ ¬ p.bandLow ≤ n 29999 ∧
        ¬ n 32501 ≤ p.bandHigh) ∧
      (returning 0 true).clock.windowPredatesReturn = true ∧ (returning 0 false).clock.windowPredatesReturn = false ∧
      (returning 0 false).clock.goodWindows = 0 ∧ (returning 1 false).clock.goodWindows = 1 := by decide

theorem test_witness_PollSent : (visited running).link.phase ≠ .none ∧ running.link.phase = .none := by decide

theorem test_witness_VisitEnds : (visited running).link.phase ≠ .none ∧ running.link.phase = .none ∧
    Instr.release 0 ∈ [Instr.linkRenew 0, .release 0] := by decide

theorem test_witness_AskTaken :
    (visited running).link.phase ≠ .none ∧
      requestInRange (3 : Byte).toNat (630 : Half).toNat (630 : Half).toNat (63 : Byte).toNat (63 : Byte).toNat ∧
      (255 : Byte).toNat ≠ 0 ∧ ¬ ((0 : Byte).toNat ≠ 0) ∧
      (visited { running with alloc := { running.alloc with opState := .trip } }).alloc.opState = .trip ∧
      (running.alloc.opState ≠ .trip ∧ (granted.bay 0).record = some 0) ∧ (running.bay 0).record = none ∧
      ({ running with pool := { running.pool with freeList := [] } } : State).pool.freeList = [] ∧
      running.pool.freeList = 0 :: (List.finRange 48).tail :=
  ⟨by decide, test_witness_requestInRange.1, by decide, by decide, by decide, by decide +kernel, by decide +kernel, rfl, by decide +kernel⟩

theorem test_witness_LinkHandleRefused :
    (visited granted).link.phase ≠ .none ∧ 1 ≤ (630 : Half).toNat ∧ (630 : Half).toNat ≤ 630 ∧
      (∀ i : RecIdx, granted.handle i ≠ (48 : Half).toNat) ∧ (granted.handle 1 = (1 : Half).toNat ∧ granted.life 1 = .free) ∧
      (let s := { visited granted with link := { Link.reset with phase := .reply, position := 1 } }
       s.handle 0 = (0 : Half).toNat ∧ (s.life 0).terms? = some terms ∧ terms.bay ≠ s.link.position) ∧
      (visited spent).handle 0 = (0 : Half).toNat ∧ (visited spent).life 0 = .spent terms .released false ∧
        terms.bay = (visited spent).link.position := by decide +kernel

theorem test_witness_ChangeTaken :
    ((0 : Half).toNat = 0 ∧ 630 < (631 : Half).toNat) ∧ (1 ≤ (80 : Half).toNat ∧ (80 : Half).toNat ≤ 630) ∧
      terms.bay = (visited granted).link.position ∧ (visited retiring).life 0 = .retiring terms 80 .released 20 ∧
      ((visited waiting).life 0 = .waiting terms .none ∧ (80 : Half).toNat < (81 : Half).toNat) ∧
      ((visited granted).life 0 = .granted terms grant ∧ min grant.staged (100 : Half).toNat < (81 : Half).toNat) ∧
      ((terms.value &&& ~~~terms.mask) = 0 ∧ (terms.leaseLength = 0 → terms.origin = .port)) ∧
      (80 : Half).toNat ≤ min grant.staged (100 : Half).toNat := by decide +kernel

theorem test_witness_LinkRenewAndReleaseTaken :
    let leased := visited (holding (.granted { terms with leaseLength := 255 } { grant with leaseLeft := some 1 }))
    (visited granted).link.phase ≠ .none ∧ (visited granted).handle 0 = (0 : Half).toNat ∧
      terms.bay = (visited granted).link.position ∧ (visited waiting).life 0 = .waiting terms .none ∧
      ((visited granted).life 0 = .granted terms grant ∧ terms.leaseLength = 0) ∧
      (leased.life 0 = .granted { terms with leaseLength := 255 } { grant with leaseLeft := some 1 }) ∧
      (visited retiring).life 0 = .retiring terms 80 .released 20 := by decide +kernel

theorem terms_of_holding (l : Life) (i : RecIdx) (t : Terms) (h : ((holding l).life i).terms? = some t) : l.terms? = some t := by
  rw [life_holding] at h
  by_cases hi : i = 0
  · rwa [if_pos hi] at h
  · rw [if_neg hi] at h; cases h

theorem test_witness_grantsWithinTerms : (ready granted).GrantsWithinTerms := by
  intro i
  have hl : (ready granted).life i = (holding (.granted terms grant)).life i := rfl
  rw [hl]
  refine ⟨fun t h => ?_, fun t g h => ?_⟩
  · have := terms_of_holding _ i t h
    cases this; decide
  · rw [life_holding] at h
    by_cases hi : i = 0
    · rw [if_pos hi] at h; cases h; decide
    · rw [if_neg hi] at h; cases h

theorem test_witness_AdmissionPassOutcome :
    granted.alloc.passDue = false ∧
      (let s := ready { granted with alloc := { granted.alloc with opState := .hold } }
       s.alloc.passDue = true ∧ s.alloc.opState ≠ .running) ∧
      (ready granted).alloc.passDue = true ∧ (ready granted).alloc.opState = .running ∧ (ready granted).alloc.reclaiming = false ∧
      (ready granted).ListsExact ∧ (ready granted).GrantsWithinTerms :=
  ⟨by decide +kernel, by decide +kernel, by decide +kernel, by decide +kernel, by decide +kernel, test_witness_listsExact.1,
    test_witness_grantsWithinTerms⟩

/-- Record 0 alone in the queue with a pass due, under a bay entry. -/
def queued (f : Bay → Bay) : State :=
  (ready waiting).modBay 0 f

/-- Record 0 WAITING in class 3 behind record 1, GRANTED on bay 1 with staged grant 100 and floor 40, under a ceiling. -/
def squeezed (ceiling : Nat) : State :=
  let s := (ready waiting).setLife 0 (.waiting { terms with cls := 3 } .none)
  { s.setLife 1 (.granted { terms with bay := 1 } { grant with staged := 100 }) with
    alloc := { s.alloc with loads := Vector.replicate 64 100, grantOrder := [1], effCeiling := ceiling } }

theorem test_witness_LoneRecordOutcome :
    let s := queued id
    let beside := squeezed 200
    (s.alloc.passDue = true ∧ s.alloc.opState = .running ∧ s.alloc.reclaiming = false ∧ s.alloc.waitQueue = [0] ∧
        s.alloc.grantOrder = [] ∧ s.life 0 = .waiting terms .none) ∧
      (beside.alloc.waitQueue = [0] ∧ beside.alloc.grantOrder = [1] ∧
        beside.life 1 = .granted { terms with bay := 1 } { grant with staged := 100 } ∧ terms.requested = 100 ∧
        s.params.squeezeClasses.getLsbD terms.cls.val = false) ∧
      (((queued fun y => { y with blockCause := .stray }).bay 0).blockCause ≠ .none ∧
        ((queued fun y => { y with calState := .settling }).bay 0).calState ≠ .idle ∧
        ((queued fun y => { y with gate := .shut }).bay 0).gate = .shut ∧
        (queued id).params.closeLimit ≤ ((queued fun y => { y with closeCount := 6 }).bay 0).closeCount) ∧
      ((s.bay 0).blockCause = .none ∧ (s.bay 0).calState = .idle ∧ (s.bay 0).gate = .opened ∧
        ((queued fun y => { y with closeCount := 5 }).bay 0).closeCount < s.params.closeLimit) ∧
      (let low := fun n : Nat => ({ s with alloc := { s.alloc with effCeiling := n } } : State)
       ((∀ p, terms.onAt p = true → 39 ≤ (low 39).alloc.effCeiling - (low 39).load p) ∧
          (∃ p, terms.onAt p = true ∧ 39 = (low 39).alloc.effCeiling - (low 39).load p) ∧ 39 < max terms.floor 1) ∧
        (∀ p, terms.onAt p = true → 40 ≤ (low 40).alloc.effCeiling - (low 40).load p) ∧
          (∃ p, terms.onAt p = true ∧ 40 = (low 40).alloc.effCeiling - (low 40).load p) ∧ max terms.floor 1 ≤ 40) := by
  decide +kernel

theorem test_witness_SqueezeAndRestore :
    let s := squeezed 80
    let u := { terms with cls := 3 }
    let v := { terms with bay := 1 }
    (s.alloc.passDue = true ∧ s.alloc.opState = .running ∧ s.alloc.reclaiming = false ∧ s.alloc.waitQueue = [0] ∧
        s.alloc.grantOrder = [1] ∧ s.life 0 = .waiting u .none ∧ s.life 1 = .granted v { grant with staged := 100 }) ∧
      ((s.bay 0).blockCause = .none ∧ (s.bay 0).calState = .idle ∧ (s.bay 0).gate = .opened ∧ (s.bay 0).closeCount < s.params.closeLimit) ∧
      (s.params.squeezeClasses.getLsbD u.cls.val = true ∧ v.cls < u.cls ∧ v.floor < 100 ∧ ∃ p, u.onAt p = true ∧ v.onAt p = true) ∧
      (IsRoom s.alloc.effCeiling s.load u 0 ∧ 0 < max u.floor 1) ∧
      (IsRoom s.alloc.effCeiling (s.projectedLoad []) u 0 ∧ IsRoom s.alloc.effCeiling (s.projectedLoad [1]) u 40 ∧ max u.floor 1 ≤ 40) ∧
      IsRoom 79 ((squeezed 79).projectedLoad [1]) u 39 ∧ ¬ max u.floor 1 ≤ 39 := by
  unfold IsRoom; decide +kernel

theorem test_witness_SqueezeAndRestore_restore :
    let s := ready granted
    let full := ready (holding (.granted terms { grant with staged := 100 }))
    (s.alloc.waitQueue = [] ∧ s.alloc.grantOrder = [0] ∧ s.life 0 = .granted terms grant ∧
        IsRoom s.alloc.effCeiling s.load terms 1920 ∧ 0 < min (terms.requested - grant.staged) 1920) ∧
      full.alloc.waitQueue = [] ∧ full.alloc.grantOrder = [0] ∧ full.life 0 = .granted terms { grant with staged := 100 } ∧
        IsRoom full.alloc.effCeiling full.load terms 1900 ∧ min (terms.requested - 100) 1900 = 0 := by
  unfold IsRoom; decide +kernel

theorem test_witness_Finds (s : State) : Finds s (Vector.ofFn s.heldHandle) := by
  intro b h
  have e : (Vector.ofFn s.heldHandle).get b = s.heldHandle b := by simp [Vector.get_eq_getElem]
  rw [e, State.heldHandle, Option.map_eq_some_iff]
  simp only [Option.filter_eq_some_iff, and_assoc, @eq_comm _ h]

theorem test_witness_TimerCounts :
    let at98 : State := { running with timer := { running.timer with ms := 98 } }
    (at98.timer.running = true ∧ at98.timer.ms + 1 < at98.params.periodLength) ∧
      ((due running).timer.running = true ∧ (due running).timer.ms + 1 = (due running).params.periodLength) ∧
      State.reset.timer.running = false ∧ running.timer.outstanding = [] ∧ (due running).timer.outstanding = [] := by decide +kernel

theorem test_witness_baysExact : (due granted).BaysExact ∧ (due retiring).BaysExact ∧ (due waiting).BaysExact := by
  refine ⟨?_, ?_, ?_⟩ <;> unfold State.BaysExact <;> decide +kernel

theorem test_witness_outputsExact : granted.OutputsExact ∧ granted.DutiesExact := by
  refine ⟨fun b => ⟨?_, ?_, fun t g h => ?_, ?_⟩, ?_⟩
  · revert b; decide +kernel
  · revert b; decide +kernel
  · have : ∀ b, (granted.bay b).limit = 0 := by decide +kernel
    rw [this b]; exact Nat.zero_le _
  · revert b; decide +kernel
  · unfold State.DutiesExact; decide +kernel

theorem test_witness_BoundaryTakesRecords :
    (due granted).timer.running = true ∧ (due granted).timer.ms + 1 = (due granted).params.periodLength ∧
      (due granted).timer.outstanding = [] ∧ (due granted).BaysExact ∧ (due granted).life 0 = .granted terms grant ∧
      (due granted).OutputsExact ∧ (due granted).DutiesExact :=
  ⟨by decide +kernel, by decide +kernel, by decide +kernel, test_witness_baysExact.1, by decide +kernel, test_witness_outputsExact⟩

theorem test_witness_BoundaryLimitsAndSignalPeriod :
    let masked := { terms with mask := 1, taper := [{ current := 30, periods := 2 }] }
    (masked.onAt 62 = true ∧ masked.onAt 63 = false) ∧ grant.taperState = none ∧
      ({ grant with taperState := some { step := 0, left := 2, unopened := false } } : Grant).taperState =
        some { step := 0, left := 2, unopened := false } ∧ masked.taper[0]? = some { current := 30, periods := 2 } := by decide

/-- Terms with a taper of two steps, the last with current 0, and the taper state in a step with one period left. -/
def tapered : Terms :=
  { terms with taper := [{ current := 50, periods := 1 }, { current := 0, periods := 1 }] }
def tapering (step : Nat) : Grant :=
  { grant with taperState := some { step := step, left := 1, unopened := false } }

theorem test_witness_RecordEventsTaken :
    let leased := leaving (.bay 0) (holding (.granted { terms with leaseLength := 3 } { grant with leaseLeft := some 1 }))
    let last := leaving (.bay 0) (holding (.granted tapered (tapering 1)))
    let first := leaving (.bay 0) (holding (.granted tapered (tapering 0)))
    let ramp := leaving (.bay 0) (holding (.retiring terms 80 .released 1))
    let since := unfound (.bay 0) granted
    (leased.life 0 = .granted { terms with leaseLength := 3 } { grant with leaseLeft := some 1 } ∧ (leased.bay 0).record = some 0 ∧
        BoundaryPart.bay 0 ∈ leased.timer.outstanding ∧ leased.timer.found.get 0 = some (leased.handle 0)) ∧
      (since.life 0 = .granted terms grant ∧ (since.bay 0).record = some 0 ∧ since.timer.outstanding = [.bay 0] ∧
        since.timer.found.get 0 ≠ some (since.handle 0) ∧ since.timer.running = true ∧ since.timer.ms + 1 < since.params.periodLength) ∧
      (last.life 0 = .granted tapered (tapering 1) ∧ (last.bay 0).record = some 0 ∧ BoundaryPart.bay 0 ∈ last.timer.outstanding ∧
        tapered.taper[1]? = some { current := 0, periods := 1 } ∧ tapered.taper[1 + 1]? = none ∧ (tapering 1).leaseLeft = none ∧
        last.timer.found.get 0 = some (last.handle 0)) ∧
      (first.life 0 = .granted tapered (tapering 0) ∧ tapered.taper[0 + 1]? = some { current := 0, periods := 1 } ∧
        first.timer.found.get 0 = some (first.handle 0)) ∧
      ramp.life 0 = .retiring terms 80 .released 1 ∧ (ramp.bay 0).record = some 0 ∧ (ramp.bay 0).enable = .closed ∧
        BoundaryPart.bay 0 ∈ ramp.timer.outstanding ∧ ramp.timer.found.get 0 = some (ramp.handle 0) := by decide +kernel

theorem test_witness_WindowsEnd :
    let strikes := leaving (.strikes 0) (holding (.granted terms { grant with strikes := 2, strikeWindowLeft := 1 }))
    let close := leaving .closeWindow { running with closeWindowLeft := 1 }
    let settle := leaving (.settle 15) (running.setBay 15 { Bay.reset with calState := .settling, settleLeft := 1 })
    (strikes.life 0 = .granted terms { grant with strikes := 2, strikeWindowLeft := 1 } ∧ (strikes.bay 0).record = some 0 ∧
        BoundaryPart.strikes 0 ∈ strikes.timer.outstanding ∧ strikes.timer.found.get 0 = some (strikes.handle 0)) ∧
      (close.closeWindowLeft ≤ 1 ∧ BoundaryPart.closeWindow ∈ close.timer.outstanding) ∧
      ((settle.bay 15).calState = .settling ∧ (settle.bay 15).settleLeft ≤ 1 ∧ BoundaryPart.settle 15 ∈ settle.timer.outstanding) ∧
      granted.timer.outstanding = [] ∧ (unfound (.bay 0) granted).timer.found.get 0 ≠ some (granted.handle 0) := by decide +kernel

theorem test_witness_BoundaryCounts :
    let strikes := due (holding (.granted terms { grant with strikeWindowLeft := 2 }))
    let settle := due (running.setBay 15 { Bay.reset with calState := .settling, settleLeft := 2 })
    let charged := due (granted.modBay 0 fun y => { y with sumOwner := some 0, periodSum := 160, periodCount := 2 })
    (strikes.timer.running = true ∧ strikes.timer.ms + 1 = strikes.params.periodLength ∧ strikes.timer.outstanding = []) ∧
      ((strikes.bay 0).record = some 0 ∧ strikes.life 0 = .granted terms { grant with strikeWindowLeft := 2 }) ∧
      1 < (due running).closeWindowLeft ∧ ((settle.bay 15).calState = .settling ∧ 1 < (settle.bay 15).settleLeft) ∧
      ((charged.bay 0).sumOwner = some (charged.handle 0) ∧ 0 < (charged.bay 0).periodCount ∧ charged.life 0 = .granted terms grant) ∧
      (let ramp := due (retiring.modBay 0 fun y => { y with sumOwner := some 0, periodSum := 160, periodCount := 2 })
       (ramp.bay 0).sumOwner = some (ramp.handle 0) ∧ 0 < (ramp.bay 0).periodCount ∧ ramp.life 0 = .retiring terms 80 .released 20) ∧
      (let ended := due (spent.modBay 0 fun y => { y with sumOwner := some 0, periodSum := 160, periodCount := 2 })
       (ended.bay 0).sumOwner = some 0 ∧ ∀ i, ended.handle i = 0 → (ended.life i).holdsLoad = false) ∧
      (let reclaimed := due (running.modBay 0 fun y => { y with sumOwner := some 48, periodSum := 160, periodCount := 2 })
       (reclaimed.bay 0).sumOwner = some 48 ∧ ∀ i, reclaimed.handle i = 48 → (reclaimed.life i).holdsLoad = false) ∧
      (running.bay 0).sumOwner = none ∧ (running.bay 0).periodCount = 0 := by
  decide +kernel

theorem test_witness_SamplerServes :
    let m := Sampler.reset
    ({ m with calRequests := [0, 15] } : Sampler).calRequests = 0 :: [15] ∧
      (m.calRequests = [] ∧ ({ m with confirmRequests := [16] } : Sampler).confirmRequests = 16 :: []) ∧
      (m.confirmRequests = [] ∧ ({ m with portRequests := [17] } : Sampler).portRequests = 17 :: []) ∧ m.portRequests = [] ∧
      (let l : List Channel := [0, 15, 17]
       l.Pairwise (· < ·) ∧ 0 ∈ l ∧ ∀ d ∈ l, 0 ≤ d) ∧
      (converting .port 17 running).sampler.current = some { kind := .port, channel := 17 } ∧ State.reset.sampler.current = none ∧
      ((-100 : Int) ≤ -100 ∧ (1100 : Int) ≤ 1100 ∧ (0 : Int) ≤ 4000 ∧ (0 : Int) ≤ 63) := by decide

theorem test_witness_BayScanned :
    let s := converting .scan (bayChannel 0) granted
    let r := converting .scan (bayChannel 0) retiring
    let idle := converting .scan (bayChannel 0) waiting
    (s.sampler.current = some { kind := .scan, channel := bayChannel 0 } ∧ (s.bay 0).record = some 0 ∧
        s.life 0 = .granted terms grant ∧ (s.bay 0).calState = .idle) ∧
      ((r.bay 0).record = some 0 ∧ r.life 0 = .retiring terms 80 .released 20 ∧ r.params.restThreshold < r.resultOf (bayChannel 0) 6) ∧
      ((idle.bay 0).record = some 0 ∧ idle.life 0 = .waiting terms .none ∧ (idle.bay 0).blockCause = .none ∧
        (idle.bay 0).strayGrace = false ∧ (idle.bay 0).calState = .idle) ∧
      ((idle.modBay 0 fun y => { y with calState := .sampling }).bay 0).calState = .sampling ∧
      ((idle.modBay 0 fun y => { y with strayGrace := true }).bay 0).strayGrace = true := by decide +kernel

theorem test_witness_BayConfirmed :
    let s := converting .confirm (bayChannel 0) granted
    let third := converting .confirm (bayChannel 0) (holding (.granted terms { grant with strikes := 2 }))
    let idle := converting .confirm (bayChannel 15) running
    (s.sampler.current = some { kind := .confirm, channel := bayChannel 0 } ∧ (s.bay 0).record = some 0 ∧
        s.life 0 = .granted terms grant ∧ s.resultOf (bayChannel 0) 10 ≤ (s.bay 0).limitInForce + s.params.tolerance ∧
        (s.bay 0).limitInForce + s.params.tolerance < s.resultOf (bayChannel 0) 11 ∧ grant.strikes + 1 ≠ s.params.strikeLimit) ∧
      (third.life 0 = .granted terms { grant with strikes := 2 } ∧ 2 + 1 = third.params.strikeLimit) ∧
      ((idle.bay 15).record = none ∧ (idle.bay 15).calState = .idle ∧ (idle.bay 15).blockCause = .none ∧
        (idle.bay 15).strayGrace = false ∧ idle.resultOf (bayChannel 15) 10 ≤ idle.params.strayThreshold ∧
        idle.params.strayThreshold < idle.resultOf (bayChannel 15) 11) := by decide +kernel

theorem test_witness_RampEnds :
    let s := converting .confirm (bayChannel 0) retiring
    (s.sampler.current = some { kind := .confirm, channel := bayChannel 0 } ∧ (s.bay 0).record = some 0 ∧
        s.life 0 = .retiring terms 80 .released 20 ∧ (s.bay 0).calState = .idle) ∧
      s.resultOf (bayChannel 0) 5 ≤ s.params.restThreshold ∧ s.params.restThreshold < s.resultOf (bayChannel 0) 6 ∧
      (converting .scan (bayChannel 0) retiring).sampler.current = some { kind := .scan, channel := bayChannel 0 } := by decide +kernel

theorem test_witness_FeedSupervised :
    let scan := converting .scan feedChannel running
    let confirm := converting .confirm feedChannel running
    scan.sampler.current = some { kind := .scan, channel := feedChannel } ∧
      confirm.sampler.current = some { kind := .confirm, channel := feedChannel } ∧ running.alloc.opState = .running ∧
      running.alloc.effCeiling + running.params.feedMargin < running.resultOf feedChannel 2051 ∧
      ¬ running.alloc.effCeiling + running.params.feedMargin < running.resultOf feedChannel 2050 := by decide +kernel

theorem test_witness_TempFiltered :
    let s := converting .scan tempChannel { running with thermal := { filtered := some 24, zone := .normal } }
    let p := s.params
    (24 < p.warmCode ∧ p.warmCode ≤ 25 ∧ 25 < p.hotCode ∧ p.hotCode ≤ 30 ∧ 34 < p.criticalCode ∧ p.criticalCode ≤ 35) ∧
      s.sampler.current = some { kind := .scan, channel := tempChannel } ∧
      (¬ (24 + p.hysteresis < s.resultOf tempChannel 26 ∨ s.resultOf tempChannel 26 + p.hysteresis < 24)) ∧
      (24 + p.hysteresis < s.resultOf tempChannel 27 ∧ zoneOf p (some (s.resultOf tempChannel 27)) ≠ s.thermal.zone) ∧
      (s.resultOf tempChannel 21 + p.hysteresis < 24 ∧ zoneOf p (some (s.resultOf tempChannel 21)) = s.thermal.zone) ∧
      (zoneOf p (some (s.resultOf tempChannel 35)) = .critical ∧ s.alloc.opState = .running) ∧
      zoneOf p (some (s.resultOf tempChannel 34)) ≠ .critical ∧ s.alloc.reclaiming = false ∧ ∀ q, s.load q ≤ 1500 := by decide +kernel

theorem test_witness_TempFiltered_effective :
    let s := fun (ceiling eff : Nat) (reclaiming : Bool) =>
      ({ granted with alloc := { granted.alloc with ceiling := ceiling, effCeiling := eff, reclaiming := reclaiming } } : State)
    granted.ListsExact ∧ Zone.warm.factor = 75 ∧ 0 * Zone.warm.factor / 100 = (s 0 0 false).alloc.effCeiling ∧
      (106 * Zone.warm.factor / 100 = 79 ∧ 79 < (s 106 106 false).alloc.effCeiling ∧ ∃ p, 79 < (s 106 106 false).load p) ∧
      (107 * Zone.warm.factor / 100 = 80 ∧ 80 < (s 107 107 false).alloc.effCeiling ∧ ∀ p, (s 107 107 false).load p ≤ 80) ∧
      ((s 160 80 false).alloc.effCeiling < 120 ∧ (s 106 53 true).alloc.effCeiling < 79 ∧ (∃ p, 79 < (s 106 53 true).load p) ∧
        (s 107 53 true).alloc.effCeiling < 80 ∧ ∀ p, (s 107 53 true).load p ≤ 80) :=
  ⟨test_witness_listsExact.1, by decide +kernel, by decide +kernel, by decide +kernel, by decide +kernel, by decide +kernel⟩

theorem test_witness_CalibrationTaken :
    let settle := converting .scan (bayChannel 15) (running.setBay 15 { Bay.reset with calState := .settling })
    let sample := fun (n : Nat) (sum : Int) => converting .calibration (bayChannel 15)
      (running.setBay 15 { Bay.reset with calState := .sampling, samplesTaken := n, sampleSum := sum })
    (settle.sampler.current = some { kind := .scan, channel := bayChannel 15 } ∧ (settle.bay 15).calState = .settling ∧
        (settle.bay 15).record = none ∧ settle.params.strayThreshold < settle.resultOf (bayChannel 15) 11 ∧
        settle.resultOf (bayChannel 15) 10 ≤ settle.params.strayThreshold) ∧
      ((sample 6 0).sampler.current = some { kind := .calibration, channel := bayChannel 15 } ∧
        ((sample 6 0).bay 15).calState = .sampling ∧ ((sample 6 0).bay 15).samplesTaken < 7 ∧ ((sample 7 0).bay 15).samplesTaken = 7) ∧
      ((sample 0 0).params.strayThreshold = 10 ∧ (running.bay 15).calState = .idle) ∧
      (({ Sampler.reset with calRequests := [bayChannel 15] } : Sampler).calRequests = [bayChannel 15] ∧ (0 : BayIdx) < 15) ∧
      ((-40 : Int) ≤ (((sample 7 (-330)).bay 15).sampleSum + 10) / 8 ∧ (((sample 7 317).bay 15).sampleSum + 10) / 8 ≤ 40 ∧
        (((sample 7 (-331)).bay 15).sampleSum + 10) / 8 < -40 ∧ 40 < (((sample 7 318).bay 15).sampleSum + 10) / 8) := by decide +kernel

/-! ### Witnesses of the invariants: a GRANTED record on bay 0, with a command waiting -/

/-- The GRANTED record with a step to take: STOP, which is refused. -/
def stepping : State :=
  { granted with pending := [.stop []] }

theorem test_witness_step : ∃ t, step stepping = .next t := ⟨_, rfl⟩

theorem test_witness_ListsStayExact : (stepping.life 0).terms? = some terms ∧ stepping.ListsExact :=
  ⟨by decide +kernel, test_witness_listsExact.1⟩

theorem test_witness_LoadsStayExact : stepping.FreeListExact ∧ stepping.LoadsExact ∧ stepping.ReclaimExact := by
  refine ⟨test_witness_listsExact.1.1, ?_, ?_⟩
  · unfold State.LoadsExact; decide +kernel
  · unfold State.ReclaimExact; decide +kernel

theorem test_witness_BaysStayExact :
    stepping.FreeListExact ∧ stepping.BaysExact ∧ stepping.OutputsExact ∧ stepping.ClosedBaysClear := by
  refine ⟨test_witness_listsExact.1.1, test_witness_baysExact.1, fun b => ⟨?_, ?_, fun t g h => ?_, ?_⟩, ?_⟩
  · revert b; decide +kernel
  · revert b; decide +kernel
  · have : ∀ b, (stepping.bay b).limit = 0 := by decide +kernel
    rw [this b]; exact Nat.zero_le _
  · revert b; decide +kernel
  · unfold State.ClosedBaysClear; decide +kernel

theorem test_witness_HoldsStayExact : stepping.HoldsExact ∧ stepping.ClockExact := by
  refine ⟨?_, ?_⟩
  · unfold State.HoldsExact; decide +kernel
  · unfold State.ClockExact; decide +kernel

theorem test_witness_ParametersAndTimerStayLegal : stepping.params.Legal ∧ stepping.TimerExact := by
  refine ⟨?_, ?_⟩
  · unfold Params.Legal; decide +kernel
  · unfold State.TimerExact; decide +kernel

theorem test_witness_ThermalStaysExact : stepping.ThermalExact := by
  unfold State.ThermalExact; decide +kernel

theorem test_witness_DutiesStayExact : stepping.DutiesExact ∧ stepping.CalibrationsExact ∧
    ({ stepping with sampler := { stepping.sampler with calRequests := [0, 15], confirmRequests := [3, 16] } } : State).RequestsExact := by
  refine ⟨?_, ?_, ?_⟩
  · unfold State.DutiesExact; decide +kernel
  · unfold State.CalibrationsExact; decide +kernel
  · unfold State.RequestsExact; decide +kernel

theorem test_witness_GrantsStayWithinTerms :
    stepping.GrantsWithinTerms ∧ ({ window granted unchanged with pending := [.editCommit []] } : State).EditWindowExact := by
  refine ⟨test_witness_grantsWithinTerms, fun w h _ => ?_⟩
  cases h
  exact ⟨0, by decide +kernel, Or.inr (by decide +kernel)⟩

end Sys2Proof.Tests
end

section
/-!
What a step can do to the records, the lists, the edit window, the operating state and the bay outputs: a relation `Move` with one constructor
for each thing that happens to them. Every command is a sequence of moves and of bay parts of a boundary (`exec_run`), so an
invariant of these components needs one case for each move.
-/
set_option Elab.async false

namespace Sys2Proof.Machine

/-! ### Changes within a record's state -/

/-- The checks that all terms meet: floor at most requested, and the pattern value within its mask (R1, R24). -/
def Terms.Sound (t : Terms) : Prop :=
  t.floor ≤ t.requested ∧ (t.value &&& ~~~t.mask) = 0#6

/-- Sound terms with the staged grant between floor and requested (R25). -/
def Grant.Within (g : Grant) (t : Terms) : Prop :=
  t.Sound ∧ t.floor ≤ g.staged ∧ g.staged ≤ t.requested

/-- A record's life changes and its state, its bay and, while it waits, its class stand; what R24 and R25 ask of it is kept. -/
inductive Life.Amends : Life → Life → Prop
  | same (l : Life) : Life.Amends l l
  | waiting {t u : Terms} {r q : WaitReason} (bay : u.bay = t.bay) (cls : u.cls = t.cls) (sound : t.Sound → u.Sound) :
      Life.Amends (.waiting t r) (.waiting u q)
  | granted {t u : Terms} {g k : Grant} (bay : u.bay = t.bay) (within : g.Within t → k.Within u) :
      Life.Amends (.granted t g) (.granted u k)
  | retiring {t u : Terms} {a n a' n' : Nat} {c d : EndCause} (bay : u.bay = t.bay) (sound : t.Sound → u.Sound) :
      Life.Amends (.retiring t a c n) (.retiring u a' d n')

/-- A handle names a WAITING or GRANTED record (R180). -/
def State.Covers (s : State) (h : Nat) : Prop :=
  ∃ i, s.resolve h = some i ∧ ((s.life i).isWaiting = true ∨ (s.life i).isGranted = true)

/-- A bay's entry and enable stand, and a bay that is neither blocked nor calibrating stays so. -/
structure Bay.Eases (y z : Bay) : Prop where
  record : z.record = y.record
  enable : z.enable = y.enable
  clear : y.blockCause = .none ∧ y.calState = .idle → z.blockCause = .none ∧ z.calState = .idle

/-- A bay's limit stands, and its decrease grace stands or ends. -/
structure Bay.Holds (y z : Bay) : Prop where
  limit : z.limit = y.limit
  grace : z.decreaseGrace = y.decreaseGrace ∨ z.decreaseGrace = none

theorem Bay.Eases.refl (y : Bay) : y.Eases y := ⟨rfl, rfl, id⟩

theorem Bay.Holds.refl (y : Bay) : y.Holds y := ⟨rfl, .inl rfl⟩

/-- No record changes state, no list changes, no enable moves; the operating state stands or becomes RUNNING or HOLD, and a window that is not
STALE was there before, or names a WAITING or GRANTED record. -/
structure Amended (s t : State) : Prop where
  lives : ∀ i, (s.life i).Amends (t.life i)
  generation : ∀ i, (t.record i).generation = (s.record i).generation
  freeList : t.pool.freeList = s.pool.freeList
  waitQueue : t.alloc.waitQueue = s.alloc.waitQueue
  grantOrder : t.alloc.grantOrder = s.alloc.grantOrder
  window : ∀ w, t.pool.edit = some w → w.stale = false →
    s.Covers w.handle ∨ ∃ v, s.pool.edit = some v ∧ v.stale = false ∧ v.handle = w.handle
  opState : t.alloc.opState = s.alloc.opState ∨ t.alloc.opState = .running ∨ t.alloc.opState = .hold
  bays : ∀ b, (s.bay b).Eases (t.bay b)
  pending : t.pending = s.pending

/-- The limits stand, and so does the active grant of every GRANTED record of a bay outside `X`. -/
structure Firm (X : BayIdx → Prop) (s t : State) : Prop where
  bays : ∀ b, (s.bay b).Holds (t.bay b)
  active : ∀ i t₁ g₁ t₂ g₂, s.life i = .granted t₁ g₁ → t.life i = .granted t₂ g₂ → ¬ X t₁.bay → g₂.active = g₁.active

/-! ### The moves -/

/-- One thing that happens to records, lists, window, operating state and outputs. `X` holds of the bays whose record may be activated
without its limit following in the same move. -/
inductive Move (X : BayIdx → Prop) (s : State) : State → Prop
  | amend {t : State} : Amended s t → Firm X s t → Move X s t
  /-- A WAITING record with a rewritten class enters the queue again (R36). -/
  | requeue {i : RecIdx} {t u : Terms} {r q : WaitReason} : s.life i = .waiting t r → u.bay = t.bay → (t.Sound → u.Sound) →
      Move X s ((s.setLife i (.waiting u q)).requeue i u.cls)
  | create {t : State} {i : RecIdx} {rest : List RecIdx} {u : Terms} : s.pool.freeList = i :: rest → (s.bay u.bay).record = none →
      u.Sound → Creates s t i rest u.bay u → Move X s t
  | spend {t : State} {i : RecIdx} {u : Terms} {c : EndCause} {f : Bool} : (s.life i).liveTerms? = some u →
      EntersSpent s t i u c f → Move X s t
  | retire {t : State} {i : RecIdx} {u : Terms} {g : Grant} {c : EndCause} : s.life i = .granted u g →
      EntersRetiring s t i u g c → Move X s t
  | admits {t : State} {i : RecIdx} {u : Terms} {r : WaitReason} {n : Nat} : s.life i = .waiting u r → s.Admissible u.bay →
      s.alloc.opState = .running → (u.Sound → u.floor ≤ n ∧ n ≤ u.requested) → Admits s t i u n → Move X s t
  /-- A bay without load is blocked or begins a phase of its calibration. -/
  | seize {b : BayIdx} {y : Bay} : (s.bay b).enable = .opened ∨ (s.bayLife b).map Life.holdsLoad ≠ some true → y.record = (s.bay b).record →
      y.enable = (s.bay b).enable → (s.bay b).Holds y → Move X s (s.setBay b y)
  | trip {t : State} : EntersTrip s t → Move X s t
  | reclaim {i : RecIdx} {u : Terms} {c : EndCause} {f : Bool} : s.life i = .spent u c f → Move X s (s.reclaimRecord i u.bay)
  /-- Restart and device reset: no record is left in use, and every output is open. -/
  | vacate {t : State} : (∀ i, t.life i = .free) → (s.FreeListExact → t.FreeListExact) → t.pool.edit = none → t.alloc.waitQueue = [] →
      t.alloc.grantOrder = [] → (∀ b, (t.bay b).record = none ∧ (t.bay b).enable = .opened ∧ (t.bay b).limit = 0 ∧
        (t.bay b).decreaseGrace = none) → t.pending = s.pending → Move X s t
  | stop : (∀ i, (s.life i).holdsLoad = false) → Move X s { s with alloc := { s.alloc with opState := .standby } }

/-- A sequence of moves. -/
def Moves (X : BayIdx → Prop) : State → State → Prop :=
  Relation.ReflTransGen (Move X)

/-- A move, or the bay part of a boundary as a whole: inside it an activation and its limit are apart. -/
inductive Stage (s : State) : State → Prop
  | move {t : State} : Move (fun _ => False) s t → Stage s t
  | boundary (b : BayIdx) : Stage s (s.bayBoundary b)

/-- What a command can do: a sequence of moves and of bay parts of a boundary. -/
def Run : State → State → Prop :=
  Relation.ReflTransGen Stage

theorem Moves.refl {X : BayIdx → Prop} (s : State) : Moves X s s := Relation.ReflTransGen.refl

theorem Moves.trans {X : BayIdx → Prop} {s t u : State} (h : Moves X s t) (k : Moves X t u) : Moves X s u :=
  Relation.ReflTransGen.trans h k

theorem Move.moves {X : BayIdx → Prop} {s t : State} (h : Move X s t) : Moves X s t := .single h

theorem Moves.foldl {X : BayIdx → Prop} {α : Type} {f : State → α → State} (hf : ∀ s a, Moves X s (f s a)) :
    ∀ (l : List α) (s : State), Moves X s (l.foldl f s)
  | [], s => .refl s
  | a :: l, s => (hf s a).trans (Moves.foldl hf l (f s a))

theorem Run.refl (s : State) : Run s s := Relation.ReflTransGen.refl

theorem Run.trans {s t u : State} (h : Run s t) (k : Run t u) : Run s u :=
  Relation.ReflTransGen.trans h k

theorem Moves.run {s t : State} (h : Moves (fun _ => False) s t) : Run s t := Relation.ReflTransGen.mono (fun _ _ => Stage.move) _ _ h

/-- A predicate that every move keeps is kept by a sequence of moves. -/
theorem Moves.keeps {X : BayIdx → Prop} {P : State → Prop} (hP : ∀ s t, Move X s t → P s → P t) {s t : State} (h : Moves X s t)
    (hs : P s) : P t := by
  induction h with
  | refl => exact hs
  | tail _ m ih => exact hP _ _ m ih

/-- A predicate that every move and every bay part of a boundary keeps is kept by every command. -/
theorem Run.keeps {P : State → Prop} (hM : ∀ s t, Move (fun _ => False) s t → P s → P t) (hB : ∀ s b, P s → P (s.bayBoundary b))
    {s t : State} (h : Run s t) (hs : P s) : P t := by
  induction h with
  | refl => exact hs
  | tail _ m ih =>
    cases m with
    | move m => exact hM _ _ m ih
    | boundary b => exact hB _ b ih

end Sys2Proof.Machine
end

section
/-!
The shared operations as sequences of moves, one lemma for each, in the order of their definitions.
-/
set_option Elab.async false

namespace Sys2Proof.Machine

variable {X : BayIdx → Prop}

/-! ### Elementary changes -/

/-- A change of one record within its state. -/
theorem amended_setLife (s : State) (i : RecIdx) (l : Life) (h : (s.life i).Amends l) : Amended s (s.setLife i l) where
  lives j := by
    rw [State.life_setLife]
    split
    · subst_vars
      exact h
    · exact .same _
  generation j := State.generation_setLife ..
  freeList := rfl
  waitQueue := rfl
  grantOrder := rfl
  window w e hw := .inr ⟨w, e, hw, rfl⟩
  opState := .inl rfl
  bays b := .refl _
  pending := rfl

/-- A change of one record within its state, the active grant standing. -/
theorem Move.setLife (s : State) (i : RecIdx) (l : Life) (h : (s.life i).Amends l)
    (ha : ∀ t g u k, s.life i = .granted t g → l = .granted u k → ¬ X t.bay → k.active = g.active) : Move X s (s.setLife i l) := by
  refine .amend (amended_setLife s i l h) ⟨fun b => .refl _, fun j t g u k e e' hx => ?_⟩
  rw [State.life_setLife] at e'
  split at e'
  · subst_vars
    exact ha _ _ _ _ e rfl hx
  · rw [e] at e'
    cases e'
    rfl

/-- A change that reaches no record, no list and no enable. -/
theorem Amended.aside {s t : State} (records : t.pool.records = s.pool.records := by rfl)
    (window : ∀ w, t.pool.edit = some w → w.stale = false →
      s.Covers w.handle ∨ ∃ v, s.pool.edit = some v ∧ v.stale = false ∧ v.handle = w.handle := by exact fun w e hw => .inr ⟨w, e, hw, rfl⟩)
    (bays : ∀ b, (s.bay b).Eases (t.bay b) := by exact fun b => .refl _) (freeList : t.pool.freeList = s.pool.freeList := by rfl)
    (waitQueue : t.alloc.waitQueue = s.alloc.waitQueue := by rfl) (grantOrder : t.alloc.grantOrder = s.alloc.grantOrder := by rfl)
    (opState : t.alloc.opState = s.alloc.opState ∨ t.alloc.opState = .running ∨ t.alloc.opState = .hold := by exact .inl rfl)
    (pending : t.pending = s.pending := by rfl) : Amended s t :=
  { lives := fun i => by simp only [State.life, State.record, records]; exact .same _,
    generation := fun i => by simp only [State.record, records], freeList, waitQueue, grantOrder, window, opState, bays, pending }

/-- A change that reaches no record, no list and no output. -/
theorem Move.aside {s t : State} (records : t.pool.records = s.pool.records := by rfl)
    (window : ∀ w, t.pool.edit = some w → w.stale = false →
      s.Covers w.handle ∨ ∃ v, s.pool.edit = some v ∧ v.stale = false ∧ v.handle = w.handle := by exact fun w e hw => .inr ⟨w, e, hw, rfl⟩)
    (bays : ∀ b, (s.bay b).Eases (t.bay b) ∧ (s.bay b).Holds (t.bay b) := by exact fun b => ⟨.refl _, .refl _⟩)
    (freeList : t.pool.freeList = s.pool.freeList := by rfl)
    (waitQueue : t.alloc.waitQueue = s.alloc.waitQueue := by rfl) (grantOrder : t.alloc.grantOrder = s.alloc.grantOrder := by rfl)
    (opState : t.alloc.opState = s.alloc.opState ∨ t.alloc.opState = .running ∨ t.alloc.opState = .hold := by exact .inl rfl)
    (pending : t.pending = s.pending := by rfl) : Move X s t := by
  refine .amend (.aside records window (fun b => (bays b).1) freeList waitQueue grantOrder opState pending)
    ⟨fun b => (bays b).2, fun i t₁ g₁ t₂ g₂ e e' _ => ?_⟩
  simp only [State.life, State.record, records] at e e'
  rw [e] at e'
  cases e'
  rfl

/-- A change of one bay that keeps its outputs and leaves it clear. -/
theorem Move.modBay (s : State) (b : BayIdx) (f : Bay → Bay) (h : (s.bay b).Eases (f (s.bay b)) ∧ (s.bay b).Holds (f (s.bay b))) :
    Move X s (s.modBay b f) :=
  .aside (bays := fun c => by
    rw [State.bay_modBay]
    split
    · subst_vars
      exact h
    · exact ⟨.refl _, .refl _⟩)

/-- A change of every bay that keeps its outputs and leaves it clear. -/
theorem Move.modBays (s : State) (f : Bay → Bay) (h : ∀ y, Bay.Eases y (f y) ∧ Bay.Holds y (f y)) : Move X s (s.modBays f) :=
  .aside (bays := fun b => by
    rw [State.bay_modBays]
    exact h _)

theorem moves_answer (s : State) (c : ReplyCode) (l : List Byte) : Moves X s (s.answer c l) := (Move.moves .aside)
theorem moves_ok (s : State) : Moves X s s.ok := (Move.moves .aside)
theorem moves_refuse (s : State) (c : ReplyCode) : Moves X s (s.refuse c) := (Move.moves .aside)
theorem moves_raise (s : State) (f : Flag) : Moves X s (s.raise f) := (Move.moves .aside)

theorem moves_trigger (s : State) : Moves X s s.trigger := by
  rw [State.trigger_eq]
  exact (Move.moves .aside)

theorem moves_evaluate (s : State) : Moves X s s.evaluate := by
  unfold State.evaluate
  split
  · refine .trans ?_ (moves_trigger _)
    exact (Move.moves .aside)
  · exact .refl s

/-- A change of the Allocator that keeps the lists and the operating state. -/
theorem moves_alloc (s : State) (a : Allocator) (waitQueue : a.waitQueue = s.alloc.waitQueue)
    (grantOrder : a.grantOrder = s.alloc.grantOrder) (opState : a.opState = s.alloc.opState) : Moves X s { s with alloc := a } :=
  Move.moves (.aside (waitQueue := waitQueue) (grantOrder := grantOrder) (opState := .inl opState))

theorem moves_contribute (s : State) (t : Terms) (m n : Nat) : Moves X s (s.contribute t m n) := by
  have hs : Moves X s { s with alloc := s.alloc.shift t m n } := moves_alloc s _ (by simp) (by simp) (by simp)
  have h := hs.trans (moves_evaluate _)
  unfold State.contribute
  split
  · exact .refl s
  · dsimp only
    split
    · exact h.trans (moves_trigger _)
    · exact h

theorem moves_addEvent (s : State) (b : BayIdx) (e : BayEvent) : Moves X s (s.addEvent b e) :=
  (Move.modBay s b _ ⟨⟨rfl, rfl, id⟩, ⟨rfl, .inl rfl⟩⟩).moves.trans (moves_raise _ _)

/-- Marking a window STALE leaves no window that was not there before (R179). -/
theorem moves_markStale (s : State) (i : RecIdx) : Moves X s (s.markStale i) := by
  unfold State.markStale
  split
  · split
    · refine .trans (Move.aside (window := fun w e hw => ?_)).moves (moves_raise _ _)
      cases e
      exact absurd hw Bool.noConfusion
    · exact .refl s
  · exact .refl s

theorem Life.amends_withReason (l : Life) (r : WaitReason) : l.Amends (l.withReason r) := by
  cases l with
  | waiting t q => exact .waiting rfl rfl id
  | _ => exact .same _

theorem Life.withReason_granted {l : Life} {r : WaitReason} {t : Terms} {g : Grant} (h : l.withReason r = .granted t g) :
    l = .granted t g := by
  cases l <;> simp_all [Life.withReason]

theorem moves_setWaitReason (s : State) (i : RecIdx) (r : WaitReason) : Moves X s (s.setWaitReason i r) := by
  refine (Move.setLife s i _ (Life.amends_withReason _ _) fun t g u k e e' _ => ?_).moves
  rw [Life.withReason_granted e'] at e
  cases e
  rfl

theorem moves_setAllWaitReasons (s : State) (r : WaitReason) : Moves X s (s.setAllWaitReasons r) := by
  refine Move.moves (.amend ?_ ?_)
  · exact { lives := fun i => by rw [State.life_setAllWaitReasons]; exact Life.amends_withReason _ _
            generation := fun i => by rw [State.record_setAllWaitReasons]
            freeList := State.freeList_setAllWaitReasons s r
            waitQueue := by rw [State.alloc_setAllWaitReasons]
            grantOrder := by rw [State.alloc_setAllWaitReasons]
            window := fun w e hw => .inr ⟨w, by rwa [State.edit_setAllWaitReasons] at e, hw, rfl⟩
            opState := .inl (by rw [State.alloc_setAllWaitReasons])
            bays := fun b => by rw [State.bay_congr (State.bays_setAllWaitReasons s r)]; exact .refl _
            pending := State.pending_setAllWaitReasons s r }
  · refine ⟨fun b => by rw [State.bay_congr (State.bays_setAllWaitReasons s r)]; exact .refl _, fun i t g u k e e' _ => ?_⟩
    rw [State.life_setAllWaitReasons] at e'
    rw [Life.withReason_granted e'] at e
    cases e
    rfl

/-- A record takes a new life within its state, and its load follows. -/
theorem moves_become (s : State) (i : RecIdx) (l : Life) (h : (s.life i).Amends l)
    (ha : ∀ t g u k, s.life i = .granted t g → l = .granted u k → ¬ X t.bay → k.active = g.active) : Moves X s (s.become i l) := by
  unfold State.become
  split
  · exact (Move.setLife s i l h ha).moves.trans (moves_contribute _ _ _ _)
  · exact (Move.setLife s i l h ha).moves

/-! ### Record transitions -/

theorem moves_create (s : State) (i : RecIdx) (rest : List RecIdx) (u : Terms) (h : s.pool.freeList = i :: rest)
    (hb : (s.bay u.bay).record = none) (hu : u.Sound) : Moves X s (s.create i rest u) :=
  (Move.create h hb hu (s.creates i rest u)).moves

theorem moves_enterSpent (s : State) (i : RecIdx) (c : EndCause) (f : Bool) : Moves X s (s.enterSpent i c f) := by
  cases h : (s.life i).liveTerms? with
  | none => rw [State.enterSpent_dead s i c f h]; exact .refl s
  | some u => exact (Move.spend h (s.entersSpent i c f u h)).moves

theorem moves_enterRetiring (s : State) (i : RecIdx) (c : EndCause) : Moves X s (s.enterRetiring i c) := by
  cases h : s.life i with
  | granted u g => exact (Move.retire h (s.entersRetiring i c u g h)).moves
  | _ => rw [State.enterRetiring_other s i c (by rw [h]; rfl)]; exact .refl s

/-- A bay without load is blocked (R76, R109). -/
theorem moves_blockBay (s : State) (b : BayIdx) (c : BlockCause)
    (h : (s.bay b).enable = .opened ∨ (s.bayLife b).map Life.holdsLoad ≠ some true) : Moves X s (s.blockBay b c) :=
  (Move.seize (y := { s.bay b with blockCause := c }) h rfl rfl ⟨rfl, .inl rfl⟩).moves.trans (moves_addEvent _ _ _)

theorem moves_rampEnd (s : State) (i : RecIdx) : Moves X s (s.rampEnd i) := by
  unfold State.rampEnd
  split
  · exact moves_enterSpent _ _ _ _
  · exact .refl s

theorem moves_rampCut (s : State) (i : RecIdx) : Moves X s (s.rampCut i) := by
  unfold State.rampCut
  split
  · rename_i t a c n h
    have e := s.entersSpent i c true t (by rw [h]; rfl)
    exact (moves_enterSpent _ _ _ _).trans (moves_blockBay _ _ _ (.inl e.entry.2.2.2))
  · exact .refl s

/-- A GRANTED record's staged grant takes a value that R25 allows. -/
theorem moves_stage (s : State) (i : RecIdx) (v : Nat)
    (h : ∀ t g, s.life i = .granted t g → g.Within t → t.floor ≤ v ∧ v ≤ t.requested) : Moves X s (s.stage i v) := by
  unfold State.stage
  split
  · rename_i t g e
    refine moves_become s i _ ?_ fun t' g' u k e1 e2 _ => ?_
    · rw [e]
      exact .granted rfl fun w => ⟨w.1, h t g e w⟩
    · rw [e] at e1
      cases e1
      cases e2
      rfl
  · exact .refl s

/-! ### Reclaiming, trip and the effective ceiling -/

/-- A GRANTED record is lowered to its floor (R46, R137). -/
theorem moves_stage_floor (s : State) (i : RecIdx) (t : Terms) (g : Grant) (h : s.life i = .granted t g) :
    Moves X s ((s.stage i t.floor).markStale i) := by
  refine .trans (moves_stage s i _ fun t' g' e w => ?_) (moves_markStale _ _)
  rw [h] at e
  cases e
  exact ⟨le_refl _, w.1.1⟩

theorem moves_reclaimLower (s : State) (i : RecIdx) : Moves X s (s.reclaimLower i) := by
  unfold State.reclaimLower
  split
  · rename_i h
    split
    · exact moves_stage_floor s i _ _ h
    · exact .refl s
  · exact .refl s

theorem moves_reclaimRevoke (s : State) (i : RecIdx) : Moves X s (s.reclaimRevoke i) := by
  unfold State.reclaimRevoke
  split
  · split
    · exact moves_enterRetiring _ _ _
    · exact .refl s
  · exact .refl s

theorem moves_reclaimStep (s : State) : Moves X s s.reclaimStep :=
  (Moves.foldl moves_reclaimLower _ s).trans (Moves.foldl moves_reclaimRevoke _ _)

theorem moves_beginReclaim (s : State) : Moves X s s.beginReclaim := by
  have h : Moves X s { s with alloc := { s.alloc with reclaiming := true } } := (Move.moves .aside)
  exact ((h.trans (moves_raise _ _)).trans (moves_setAllWaitReasons _ _)).trans (moves_reclaimStep _)

theorem moves_setEffective (s : State) (n : Nat) : Moves X s (s.setEffective n) := by
  have h : Moves X s { s with alloc := { s.alloc with effCeiling := n } } := (Move.moves .aside)
  unfold State.setEffective
  split
  · exact .refl s
  · dsimp only
    split
    · exact (h.trans (moves_evaluate _)).trans (moves_trigger _)
    · split
      · exact h
      · split
        · exact h.trans (moves_reclaimStep _)
        · exact h.trans (moves_beginReclaim _)

theorem moves_enterTrip (s : State) : Moves X s s.enterTrip := (Move.trip s.entersTrip).moves

theorem moves_takeZone (s : State) (z : Zone) : Moves X s (s.takeZone z) := by
  unfold State.takeZone
  split
  · refine .trans ?_ (moves_enterTrip _)
    exact (Move.moves .aside)
  · exact moves_setEffective _ _

theorem moves_deriveZone (s : State) : Moves X s s.deriveZone := by
  unfold State.deriveZone
  dsimp only
  split
  · exact .refl s
  · refine .trans (.trans ?_ (moves_raise _ _)) (moves_takeZone _ _)
    exact (Move.moves .aside)

/-! ### Operating state -/

theorem moves_enterWork (s : State) : Moves X s s.enterWork := by
  unfold State.enterWork
  split
  · exact (Move.aside (opState := .inr (.inr rfl))).moves
  · exact (Move.aside (opState := .inr (.inl rfl))).moves.trans (moves_trigger _)

theorem moves_holdIfRunning (s : State) : Moves X s s.holdIfRunning := by
  unfold State.holdIfRunning
  split
  · exact (Move.aside (opState := .inr (.inr rfl))).moves.trans (moves_setAllWaitReasons _ _)
  · exact .refl s

theorem moves_runIfReleased (s : State) : Moves X s s.runIfReleased := by
  unfold State.runIfReleased
  split
  · exact moves_enterWork s
  · exact .refl s

theorem moves_setHoldPort (s : State) : Moves X s s.setHoldPort :=
  .trans (Move.moves .aside) (moves_holdIfRunning _)

theorem moves_clearHoldPort (s : State) : Moves X s s.clearHoldPort :=
  .trans (Move.moves .aside) (moves_runIfReleased _)

theorem moves_setHoldClock (s : State) : Moves X s s.setHoldClock :=
  .trans (Move.moves .aside) (moves_holdIfRunning _)

theorem moves_clearHoldClock (s : State) : Moves X s s.clearHoldClock :=
  .trans (Move.moves .aside) (moves_runIfReleased _)

/-! ### Changes of a live record -/

theorem Terms.sound_of_changeOk {t : Terms} (h : t.changeOk = true) : t.Sound := by
  simp only [Terms.changeOk, Bool.and_eq_true, decide_eq_true_eq, beq_iff_eq] at h
  exact h.1

/-- A change that R24 lets pass leaves the record within R25. -/
theorem moves_applyChange (s : State) (i : RecIdx) (ch : ChangedFields) (c : EditCopy) (h : (s.life i).refuses ch c = none) :
    Moves X s (s.applyChange i ch c) := by
  unfold State.applyChange
  split
  · rename_i t r e
    have hs : (t.changed ch c).Sound := by
      refine Terms.sound_of_changeOk ?_
      simp only [e, Life.refuses] at h
      split at h <;> simp_all
    dsimp only
    split
    · exact (Move.requeue (u := t.changed ch c) e rfl fun _ => hs).moves
    · rename_i hc
      refine (Move.setLife s i _ ?_ fun t' g' u k e1 e2 _ => by cases e2).moves
      rw [e]
      exact .waiting rfl (by simp [Terms.changed, hc]) fun _ => hs
  · rename_i t g e
    refine moves_become s i _ ?_ fun t' g' u k e1 e2 _ => ?_
    · rw [e]
      refine .granted rfl fun w => ?_
      simp only [e, Life.refuses] at h
      split at h
      · simp at h
      · split at h
        · rename_i hok
          simp only [Bool.and_eq_true, decide_eq_true_eq] at hok
          obtain ⟨hok, hf⟩ := hok
          refine ⟨Terms.sound_of_changeOk hok, ?_⟩
          have hr := w.2.2
          simp only [Grant.changed]
          split
          · exact ⟨hf, min_le_right _ _⟩
          · rename_i hc
            refine ⟨hf.trans (min_le_left _ _), ?_⟩
            simpa [Terms.changed, hc] using hr
        · simp at h
    · rw [e] at e1
      cases e1
      cases e2
      rfl
  · exact .refl s

theorem moves_reloadLease (s : State) (i : RecIdx) : Moves X s (s.reloadLease i) := by
  unfold State.reloadLease
  split
  · rename_i t g e
    split
    · exact .refl s
    · refine (Move.setLife s i _ ?_ fun t' g' u k e1 e2 _ => ?_).moves
      · rw [e]
        exact .granted rfl id
      · rw [e] at e1
        cases e1
        cases e2
        rfl
  · exact .refl s

theorem moves_requestConfirm (s : State) (c : Channel) : Moves X s (s.requestConfirm c) := (Move.moves .aside)
theorem moves_requestCalibration (s : State) (b : BayIdx) : Moves X s (s.requestCalibration b) := (Move.moves .aside)
theorem moves_requestPort (s : State) (c : Channel) : Moves X s (s.requestPort c) := (Move.moves .aside)

theorem moves_endCalibration (s : State) (b : BayIdx) (r : CalResult) : Moves X s (s.endCalibration b r) :=
  ((Move.modBay s b _ ⟨⟨rfl, rfl, fun h => ⟨h.1, rfl⟩⟩, ⟨rfl, .inl rfl⟩⟩).moves.trans (moves_addEvent _ _ _)).trans (moves_trigger _)

/-! ### The admission pass -/

theorem moves_lowerToFloor (s : State) (i : RecIdx) : Moves X s (s.lowerToFloor i) := by
  unfold State.lowerToFloor
  split
  · rename_i h
    exact moves_stage_floor s i _ _ h
  · exact .refl s

theorem moves_squeeze (s : State) (t : Terms) : Moves X s (s.squeeze t) := by
  unfold State.squeeze
  split
  · exact .refl s
  · split
    · exact .refl s
    · split
      · exact Moves.foldl moves_lowerToFloor _ s
      · exact .refl s

/-- The walk in RUNNING outside reclaiming (R41, R42); both stand while it runs. -/
theorem moves_walk : ∀ (l : List RecIdx) (s : State), s.alloc.opState = .running → s.alloc.reclaiming = false →
    Moves X s (State.walk l s).1
  | [], s, _, _ => .refl s
  | i :: rest, s, ho, hr => by
    unfold State.walk
    split
    · rename_i u r h
      split
      · exact (moves_setWaitReason _ _ _).trans (moves_walk rest _ ho hr)
      · rename_i hp
        split
        · rename_i hn
          have ha := s.admits i u r (min u.requested (s.room u)) h hr
          have hadm : s.Admissible u.bay := by
            have := s.passesOver u.bay
            rwa [hp] at this
          have hwithin : u.Sound → u.floor ≤ min u.requested (s.room u) ∧ min u.requested (s.room u) ≤ u.requested :=
            fun hu => ⟨le_min hu.1 ((le_max_left _ _).trans hn), min_le_left _ _⟩
          exact (Move.admits h hadm ho hwithin ha).moves.trans
            (moves_walk rest _ (by rw [ha.frame]; exact ho) (by rw [ha.frame]; exact hr))
        · exact (Moves.foldl (fun s j => moves_setWaitReason s j .budget) _ s).trans (moves_squeeze _ _)
    · exact moves_walk rest s ho hr

theorem moves_restoreOne (s : State) (i : RecIdx) : Moves X s (s.restoreOne i) := by
  unfold State.restoreOne
  split
  · rename_i t g h
    dsimp only
    split
    · exact .refl s
    · refine .trans (moves_stage s i _ fun t' g' e w => ?_) (moves_markStale _ _)
      rw [h] at e
      cases e
      obtain ⟨-, h1, h2⟩ := w
      omega
  · exact .refl s

theorem moves_pass (s : State) (ho : s.alloc.opState = .running) (hr : s.alloc.reclaiming = false) : Moves X s s.pass := by
  have h : Moves X s { s with alloc := { s.alloc with passDue := false } } := (Move.moves .aside)
  unfold State.pass
  dsimp only
  split
  · exact h.trans (moves_walk _ _ ho hr)
  · exact (h.trans (moves_walk _ _ ho hr)).trans (Moves.foldl moves_restoreOne _ _)

end Sys2Proof.Machine
end

section
/-!
Every command and event as a sequence of moves and of bay parts of a boundary.
-/
set_option Elab.async false

namespace Sys2Proof.Machine

variable {X : BayIdx → Prop}

/-! ### The parts of a boundary -/

/-- Activation and the counts leave the staged grant (R59, R61, R67). -/
theorem Grant.staged_boundary (g : Grant) (t : Terms) : (g.boundary t).1.staged = g.staged := by
  have hc : ∀ k : Grant, (Grant.countTaper t k).1.staged = k.staged := fun k => by
    unfold Grant.countTaper
    split <;> rfl
  unfold Grant.boundary
  dsimp only
  split
  · split
    · rfl
    · rw [hc]
  · rw [hc]

/-- The boundary step of a record; its activation moves the active grant ahead of the bay's limit. -/
theorem moves_recordBoundary (s : State) (i : RecIdx) (hX : ∀ t g, s.life i = .granted t g → X t.bay) :
    Moves X s (s.recordBoundary i) := by
  unfold State.recordBoundary
  split
  · rename_i t g h
    have h1 : Moves X s (s.become i (.granted t (g.boundary t).1)) := by
      refine moves_become s i _ ?_ fun t' g' u k e _ hx => absurd (hX t' g' e) hx
      rw [h]
      exact .granted rfl fun w => ⟨w.1, by rw [Grant.staged_boundary]; exact w.2⟩
    dsimp only
    split
    · exact h1.trans (moves_enterRetiring _ _ _)
    · exact h1
  · rename_i h
    split
    · exact moves_rampCut _ _
    · refine (Move.setLife s i _ ?_ fun t' g' u k e e' _ => by cases e').moves
      rw [h]
      exact .retiring rfl id
  · exact .refl s

/-- A bay part of a boundary: moves up to the limit, and the limit at the end. -/
theorem bayBoundary_moves (s : State) (b : BayIdx)
    (hX : ∀ i t g, (s.bay b).record = some i → s.life i = .granted t g → X t.bay) :
    ∃ m, Moves X s m ∧ s.bayBoundary b = m.modBay b fun y => y.setLimit (m.boundaryLimit b) := by
  have h1 : Moves X s (s.modBay b Bay.endGraces) := (Move.modBay s b _ ⟨⟨rfl, rfl, id⟩, ⟨rfl, .inr rfl⟩⟩).moves
  unfold State.bayBoundary
  dsimp only
  refine ⟨_, ?_, rfl⟩
  split
  · rename_i i hi
    obtain ⟨he, -⟩ := (State.foundRecord_eq_some _ _ _).mp hi
    rw [State.bay_modBay_self] at he
    exact h1.trans (moves_recordBoundary _ i fun t g e => hX i t g he e)
  · exact h1

theorem moves_countStrikeWindow (s : State) (b : BayIdx) : Moves X s (s.countStrikeWindow b) := by
  have hl : ∀ i t g k, s.life i = .granted t g → k.active = g.active → k.staged = g.staged →
      Moves X s (s.setLife i (.granted t k)) := fun i t g k e ha hs => by
    refine (Move.setLife s i _ ?_ fun t' g' u k' e1 e2 _ => ?_).moves
    · rw [e]
      exact .granted rfl fun w => ⟨w.1, by rw [hs]; exact w.2⟩
    · rw [e] at e1
      cases e1
      cases e2
      exact ha
  unfold State.countStrikeWindow
  split
  · exact .refl s
  · split
    · rename_i e
      split <;> exact hl _ _ _ _ e rfl rfl
    · exact .refl s

theorem moves_chargeRecord (s : State) (i : RecIdx) (m : Nat) : Moves X s (s.chargeRecord i m) := by
  unfold State.chargeRecord
  split
  · rename_i e
    refine (Move.setLife s i _ ?_ fun t' g' u k e1 e2 _ => ?_).moves
    · rw [e]
      exact .granted rfl id
    · rw [e] at e1
      cases e1
      cases e2
      rfl
  · rename_i e
    refine (Move.setLife s i _ ?_ fun t' g' u k e1 e2 _ => by cases e2).moves
    rw [e]
    exact .retiring rfl id
  · exact .refl s

theorem moves_foldCharge (s : State) (b : BayIdx) : Moves X s (s.foldCharge b) := by
  unfold State.foldCharge
  dsimp only
  refine Moves.trans ?_ (Move.modBay _ b _ ⟨⟨rfl, rfl, id⟩, ⟨rfl, .inl rfl⟩⟩).moves
  split
  · split
    · exact .refl s
    · split
      · exact moves_chargeRecord _ _ _
      · exact .refl s
  · exact .refl s

theorem moves_countCloseWindow (s : State) : Moves X s s.countCloseWindow := by
  have h : ∀ n, Moves X s { s with closeWindowLeft := n } := fun n => Move.moves .aside
  unfold State.countCloseWindow
  split
  · exact ((h _).trans (Move.modBays _ (fun y => { y with closeCount := 0 })
      fun y => ⟨⟨rfl, rfl, id⟩, ⟨rfl, .inl rfl⟩⟩).moves).trans (moves_trigger _)
  · exact h _

theorem moves_countSettle (s : State) (b : BayIdx) : Moves X s (s.countSettle b) := by
  unfold State.countSettle
  split
  · rename_i h
    split
    · refine .trans (Move.modBay s b _ ⟨⟨rfl, rfl, fun hc => ?_⟩, ⟨rfl, .inl rfl⟩⟩).moves (moves_requestCalibration _ _)
      rw [h] at hc
      exact absurd hc.2 (by decide)
    · exact (Move.modBay s b _ ⟨⟨rfl, rfl, id⟩, ⟨rfl, .inl rfl⟩⟩).moves
  · exact .refl s

theorem run_takePart (s : State) (p : BoundaryPart) : Run s (s.takePart p) := by
  cases p with
  | bay b => exact .single (.boundary b)
  | strikes b => exact (moves_countStrikeWindow s b).run
  | charge b => exact (moves_foldCharge s b).run
  | closeWindow => exact (moves_countCloseWindow s).run
  | settle b => exact (moves_countSettle s b).run

theorem run_takeParts : ∀ (l : List BoundaryPart) (s : State), Run s (s.takeParts l)
  | [], s => .refl s
  | p :: l, s => (run_takePart s p).trans (run_takeParts l _)

/-- A change of the Period Timer. -/
theorem run_timer (s : State) (m : Timer) : Run s { s with timer := m } := (Move.moves .aside).run

theorem run_finishBoundary (s : State) : Run s s.finishBoundary := (run_timer s _).trans (run_takeParts _ _)

theorem run_takeOutstanding (s : State) (p : BoundaryPart) : Run s (s.takeOutstanding p) := (run_timer s _).trans (run_takePart _ _)

theorem run_recordEvent (s : State) (i : RecIdx) (due : Life → Bool) : Run s (s.recordEvent i due) := by
  unfold State.recordEvent
  split
  · split
    · exact run_takeOutstanding _ _
    · exact .refl s
  · exact .refl s

/-- With no record GRANTED or RETIRING the parts of a boundary reach no record. -/
theorem pool_takePart_unloaded (s : State) (p : BoundaryPart) (h : ∀ i, (s.life i).holdsLoad = false) :
    (s.takePart p).pool = s.pool := by
  cases p with
  | bay b =>
    have hr : ∀ (u : State) (i : RecIdx), u.pool = s.pool → u.recordBoundary i = u := fun u i e => by
      have hi := h i
      rw [← State.life_congr e] at hi
      unfold State.recordBoundary
      split <;> simp_all [Life.holdsLoad]
    unfold State.takePart State.bayBoundary
    dsimp only
    rw [State.pool_modBay]
    split
    · rw [hr (s.modBay b Bay.endGraces) _ rfl]
      rfl
    · rfl
  | strikes b =>
    unfold State.takePart State.countStrikeWindow
    dsimp only
    split
    · rfl
    · rename_i i _
      have hi := h i
      split <;> simp_all [Life.holdsLoad]
  | charge b =>
    have hc : ∀ i m, s.chargeRecord i m = s := fun i m => by
      have hi := h i
      unfold State.chargeRecord
      split <;> simp_all [Life.holdsLoad]
    unfold State.takePart State.foldCharge
    dsimp only
    rw [State.pool_modBay]
    split
    · split
      · rfl
      · split
        · rw [hc]
        · rfl
    · rfl
  | closeWindow =>
    unfold State.takePart State.countCloseWindow
    dsimp only
    split
    · rw [State.pool_trigger]
      rfl
    · rfl
  | settle b =>
    unfold State.takePart State.countSettle
    dsimp only
    split
    · split <;> rfl
    · rfl

theorem pool_takeParts_unloaded : ∀ (l : List BoundaryPart) (s : State), (∀ i, (s.life i).holdsLoad = false) →
    (s.takeParts l).pool = s.pool
  | [], _, _ => rfl
  | p :: l, s, h => by
    have hp := pool_takePart_unloaded s p h
    exact (pool_takeParts_unloaded l (s.takePart p) fun i => by rw [State.life_congr hp]; exact h i).trans hp

theorem pool_finishBoundary_unloaded (s : State) (h : ∀ i, (s.life i).holdsLoad = false) : s.finishBoundary.pool = s.pool :=
  pool_takeParts_unloaded _ { s with timer := { s.timer with outstanding := [] } } h

theorem State.anyHoldsLoad_iff (s : State) : s.anyHoldsLoad = true ↔ ∃ i, (s.life i).holdsLoad = true := by
  simp only [State.anyHoldsLoad, List.any_eq_true, Vector.mem_toList_iff]
  constructor
  · rintro ⟨r, hr, h⟩
    obtain ⟨i, hi, rfl⟩ := Vector.getElem_of_mem hr
    exact ⟨⟨i, hi⟩, h⟩
  · rintro ⟨i, h⟩
    exact ⟨s.record i, Vector.getElem_mem _, h⟩

/-! ### Arguments -/

theorem run_answer (s : State) (c : ReplyCode) (l : List Byte) : Run s (s.answer c l) := (moves_answer s c l).run
theorem run_refuse (s : State) (c : ReplyCode) : Run s (s.refuse c) := (moves_refuse s c).run

/-- A step that replies OK after what it does. -/
theorem Run.ok {s t : State} (h : Run s t) : Run s t.ok := h.trans (moves_ok t).run

theorem run_noArgs (s : State) (args : List Byte) (f : State → State) (h : Run s (f s)) : Run s (s.noArgs args f) := by
  unfold State.noArgs
  split
  · exact h
  · exact run_refuse s _

theorem run_handleArg (s : State) (args : List Byte) (f : Nat → State → State) (h : ∀ v, Run s (f v s)) : Run s (s.handleArg args f) := by
  unfold State.handleArg
  split
  · exact h _
  · exact run_refuse s _

theorem run_bayArg (s : State) (args : List Byte) (f : BayIdx → State → State) (h : ∀ b, Run s (f b s)) : Run s (s.bayArg args f) := by
  unfold State.bayArg
  split
  · split
    · exact h _
    · exact run_refuse s _
  · exact run_refuse s _

theorem run_channelArg (s : State) (args : List Byte) (f : Channel → State → State) (h : ∀ c, Run s (f c s)) :
    Run s (s.channelArg args f) := by
  unfold State.channelArg
  split
  · split
    · exact h _
    · exact run_refuse s _
  · exact run_refuse s _

theorem run_flagMaskArg (s : State) (args : List Byte) (f : Nat → State → State) (h : ∀ m, Run s (f m s)) :
    Run s (s.flagMaskArg args f) := by
  unfold State.flagMaskArg
  split
  · exact h _
  · exact run_refuse s _

theorem run_withHandle (s : State) (h : Nat) (f : RecIdx → State → State) (hf : ∀ i, Run s (f i s)) : Run s (s.withHandle h f) := by
  unfold State.withHandle
  split
  · exact hf _
  · exact run_refuse s _

/-- Terms made from a checked request are sound (R11, R12). -/
theorem Request.sound_terms {cls requested floor lease mask value : Nat} {r : Request}
    (h : requestOf? cls requested floor lease mask value = some r) (b : BayIdx) (o : Origin) : (r.terms b o).Sound := by
  unfold requestOf? at h
  split at h
  · split at h
    · rename_i hr
      cases h
      obtain ⟨-, -, hf, hp⟩ := hr
      simp only [patternOk, Bool.and_eq_true, beq_iff_eq] at hp
      exact ⟨hf, hp.2⟩
    · cases h
  · cases h

/-! ### The Host Port -/

theorem run_configWrite (s : State) (n v : Nat) : Run s (s.configWrite n v) := by
  have hp : ∀ p, Run s { s with params := p } := fun p => (Move.moves .aside).run
  have hw : Run s (s.writeParam n v) := by
    unfold State.writeParam
    split
    · exact .refl s
    · dsimp only
      split
      · exact (hp _).trans (moves_deriveZone _).run
      · exact hp _
  unfold State.configWrite
  split
  · exact run_refuse s _
  · split
    · exact run_refuse s _
    · split
      · exact run_refuse s _
      · exact hw.ok

theorem run_writeCeiling (s : State) (v : Nat) : Run s (s.writeCeiling v) :=
  .trans (Move.moves .aside).run (moves_setEffective _ _).run

theorem run_setGates (s : State) (mask : Nat) (g : Gate) : Run s (s.setGates mask g) := by
  have h : Run s { s with bays := Vector.ofFn fun b => if mask.testBit b.val then { s.bay b with gate := g } else s.bay b } := by
    refine (Move.moves (.aside (bays := fun b => ?_))).run
    simp only [State.bay, Vector.get_eq_getElem, Vector.getElem_ofFn]
    split
    · exact ⟨⟨rfl, rfl, id⟩, ⟨rfl, .inl rfl⟩⟩
    · exact ⟨.refl _, .refl _⟩
  unfold State.setGates
  dsimp only
  split
  · exact h.trans (moves_trigger _).run
  · exact h

theorem run_allocFor (s : State) (b : BayIdx) (r : Request) (h : (r.terms b .port).Sound) : Run s (s.allocFor b r) := by
  unfold State.allocFor
  split
  · exact run_refuse s _
  · rename_i hb
    split
    · exact (moves_raise _ _).run.trans (run_refuse _ _)
    · rename_i hf
      exact (moves_create s _ _ _ hf (by simpa [Request.terms] using hb) h).run.trans (run_answer _ _ _)

theorem run_retire (s : State) (args : List Byte) : Run s (s.retire args) := by
  have hg : ∀ i, Run s (s.retireGraceful i) := fun i => by
    unfold State.retireGraceful
    split
    · exact (moves_enterSpent _ _ _ _).run.ok
    · exact (moves_enterRetiring _ _ _).run.ok
    · exact (Run.refl s).ok
    · exact run_refuse s _
    · exact run_refuse s _
  have hi : ∀ i, Run s (s.retireImmediate i) := fun i => by
    unfold State.retireImmediate
    split
    · exact (moves_enterSpent _ _ _ _).run.ok
    · exact (moves_enterSpent _ _ _ _).run.ok
    · exact (moves_enterSpent _ _ _ _).run.ok
    · exact run_refuse s _
    · exact run_refuse s _
  unfold State.retire
  split
  · split
    · exact run_withHandle s _ _ hg
    · split
      · exact run_withHandle s _ _ hi
      · exact run_refuse s _
  · exact run_refuse s _

theorem run_openWindow (s : State) (i : RecIdx) (t : Terms) (h : (s.life i).isWaiting = true ∨ (s.life i).isGranted = true) :
    Run s (s.openWindow i t) := by
  unfold State.openWindow
  split
  · exact run_refuse s _
  · refine .trans (Move.moves (.aside (window := fun w e _ => ?_))).run (run_answer _ _ _)
    cases e
    exact .inl ⟨i, s.resolve_handle _ i rfl, h⟩

theorem run_putWindow (s : State) (f : EditWindow → EditWindow) (hf : ∀ w, (f w).handle = w.handle ∧ (f w).stale = w.stale) :
    Run s (s.putWindow f) := by
  unfold State.putWindow
  split
  · rename_i v hv
    refine Run.ok (Move.moves (.aside (window := fun w e hw => ?_))).run
    cases e
    exact .inr ⟨v, hv, by rwa [(hf v).2] at hw, (hf v).1.symm⟩
  · exact run_refuse s _

theorem moves_closeWindow (s : State) : Moves X s s.closeWindow := Move.moves (.aside (window := fun w e _ => by cases e))

theorem run_commitWindow (s : State) (w : EditWindow) : Run s (s.commitWindow w) := by
  unfold State.commitWindow
  split
  · rename_i i _
    split
    · exact (moves_closeWindow s).run.trans (run_refuse _ _)
    · rename_i h
      exact (((moves_applyChange s i _ _ h).trans (moves_markStale _ _)).trans (moves_closeWindow _)).run.ok
  · exact (moves_closeWindow s).run.trans (run_refuse _ _)

theorem run_unblock (s : State) (b : BayIdx) : Run s (s.unblock b) := by
  unfold State.unblock
  split
  · exact (Run.refl s).ok
  · split
    · exact run_refuse s _
    · exact ((Move.modBay s b _ ⟨⟨rfl, rfl, fun h => ⟨rfl, h.2⟩⟩, ⟨rfl, .inl rfl⟩⟩).moves.trans (moves_trigger _)).run.ok

theorem run_startCalibration (s : State) (b : BayIdx) (h : s.calRefused b = false) : Run s (s.startCalibration b) := by
  have ho : (s.bay b).enable = .opened := by
    cases he : (s.bay b).enable with
    | opened => rfl
    | closed => simp [State.calRefused, he] at h
  refine .trans (Move.moves (.seize (b := b) (y := (s.bay b).calStarted s.params.calSettle) (.inl ho) rfl rfl ⟨rfl, .inl rfl⟩)).run ?_
  exact run_timer _ _

/-- A change of the Clock Monitor. -/
theorem run_clock (s : State) (c : Clock) : Run s { s with clock := c } := (Move.moves .aside).run

theorem run_judgeWindow (s : State) (good : Bool) : Run s (s.judgeWindow good) := by
  unfold State.judgeWindow
  split
  · split
    · exact run_clock s _
    · exact .refl s
  · split
    · exact .refl s
    · exact ((run_clock s _).trans (moves_raise _ _).run).trans (moves_setHoldClock _).run
  · unfold State.judgeFallback
    split
    · exact .refl s
    · split
      · exact run_clock s _
      · split
        · exact (run_clock s _).trans (moves_raise _ _).run
        · split
          · exact run_clock s _
          · exact ((run_clock s _).trans (moves_raise _ _).run).trans (moves_clearHoldClock _).run

theorem run_clearFlags (s : State) (m : Nat) : Run s (s.clearFlags m) := by
  refine (Move.moves (.aside (bays := fun b => ?_))).run
  simp only [State.clearFlags, State.bay, Vector.get_eq_getElem, Vector.getElem_ofFn]
  split
  · exact ⟨⟨rfl, rfl, id⟩, ⟨rfl, .inl rfl⟩⟩
  · exact ⟨.refl _, .refl _⟩

/-! ### Operating state -/

theorem run_startUp (s : State) : Run s s.startUp := by
  have h : Run s ({ s with timer := { Timer.reset with running := true }, closeWindowLeft := s.params.closeWindow }.modBays
      fun y => { y with closeCount := 0 }) :=
    .trans (Move.moves .aside).run
      (Move.modBays _ (fun y => { y with closeCount := 0 }) fun y => ⟨⟨rfl, rfl, id⟩, ⟨rfl, .inl rfl⟩⟩).moves.run
  unfold State.startUp
  dsimp only
  split
  · exact h.trans (moves_enterTrip _).run
  · exact h.trans (moves_enterWork _).run

/-- STOP is taken with no record GRANTED or RETIRING, and the parts of a boundary make none (R156). -/
theorem run_shutDown (s : State) (h : ∀ i, (s.life i).holdsLoad = false) : Run s s.shutDown := by
  have hf : ∀ i, (s.finishBoundary.life i).holdsLoad = false := fun i => by
    rw [State.life_congr (pool_finishBoundary_unloaded s h)]
    exact h i
  refine ((run_finishBoundary s).trans (Move.stop hf).moves.run).trans (.trans (run_timer _ Timer.stopped) ?_)
  exact (moves_setAllWaitReasons _ _).run

theorem Bay.restarted_fields (y : Bay) : y.restarted.record = none ∧ y.restarted.enable = .opened ∧ y.restarted.limit = 0 ∧
    y.restarted.decreaseGrace = none :=
  ⟨rfl, y.openEnable_spec.1, rfl, rfl⟩

theorem Record.freed_life (r : Record) : r.freed.life = .free := by
  unfold Record.freed
  split
  · assumption
  · rfl

/-- What RESTART does once the parts of the latest boundary are taken (R28, R159). -/
def State.vacated (u : State) : State :=
  { u.modBays Bay.restarted with
    pool := u.pool.restarted
    alloc := u.alloc.restarted
    timer := Timer.stopped
    sampler := { u.sampler with calRequests := [], confirmRequests := [] }
    attention := { u.attention with flags := Vector.replicate 22 .lowered } }

theorem State.restarted_eq (s : State) : s.restarted = s.finishBoundary.vacated := rfl

theorem State.record_vacated (u : State) (i : RecIdx) : u.vacated.record i = (u.record i).freed := by
  simp [State.record, State.vacated, Pool.restarted, Vector.get_eq_getElem]

theorem State.life_vacated (u : State) (i : RecIdx) : u.vacated.life i = .free := by
  rw [State.life, State.record_vacated, Record.freed_life]

theorem State.bay_vacated (u : State) (b : BayIdx) : u.vacated.bay b = (u.bay b).restarted := by
  simp only [State.bay, State.vacated, State.modBays, Vector.get_eq_getElem, Vector.getElem_ofFn]

theorem State.freeList_vacated (u : State) :
    u.vacated.pool.freeList = u.pool.freeList ++ (List.finRange 48).filter fun i => u.life i != .free := rfl

/-- The free list after RESTART holds every record once (R8, R28). -/
theorem freeListExact_vacated (u : State) (h : u.FreeListExact) : u.vacated.FreeListExact := by
  obtain ⟨hn, hm⟩ := h
  unfold State.FreeListExact
  rw [State.freeList_vacated]
  refine ⟨List.Nodup.append hn ((List.nodup_finRange 48).filter _) fun i hi hj => ?_, fun i => ?_⟩
  · exact bne_iff_ne.mp (List.mem_filter.mp hj).2 ((hm i).mp hi)
  · simp only [State.life_vacated, iff_true]
    refine List.mem_append.mpr ?_
    by_cases hl : u.life i = .free
    · exact .inl ((hm i).mpr hl)
    · exact .inr (List.mem_filter.mpr ⟨List.mem_finRange i, bne_iff_ne.mpr hl⟩)

theorem moves_vacated (u : State) : Moves X u u.vacated := by
  have he : u.vacated.pool.edit = none := by simp only [State.vacated, Pool.restarted]
  have hw : u.vacated.alloc.waitQueue = [] := by simp only [State.vacated, Allocator.restarted]
  have hg : u.vacated.alloc.grantOrder = [] := by simp only [State.vacated, Allocator.restarted]
  have hp : u.vacated.pending = u.pending := by simp only [State.vacated, State.pending_modBays]
  refine Move.moves (.vacate u.life_vacated (freeListExact_vacated u) he hw hg (fun b => ?_) hp)
  rw [State.bay_vacated]
  exact Bay.restarted_fields _

theorem run_restarted (s : State) : Run s s.restarted := (run_finishBoundary s).trans (moves_vacated _).run

theorem State.life_reset (i : RecIdx) : State.reset.life i = .free := by
  simp [State.life, State.record, State.reset, Pool.reset, Vector.get_eq_getElem]

theorem State.bay_reset (b : BayIdx) : State.reset.bay b = Bay.reset := by
  simp [State.bay, State.reset, Vector.get_eq_getElem]

theorem run_reset (s : State) : Run s { State.reset with pending := s.pending } := by
  refine (Move.moves (.vacate (s := s) (t := { State.reset with pending := s.pending }) State.life_reset
    (fun _ => ⟨List.nodup_finRange 48, fun i => ?_⟩) rfl rfl rfl (fun b => ?_) rfl)).run
  · exact ⟨fun _ => State.life_reset i, fun _ => List.mem_finRange i⟩
  · have : ({ State.reset with pending := s.pending } : State).bay b = Bay.reset := State.bay_reset b
    rw [this]
    exact ⟨rfl, rfl, rfl, rfl⟩

/-! ### The Bay Link -/

theorem run_endVisit (s : State) (f : Bay → Bay) (hf : ∀ y, Bay.Eases y (f y) ∧ Bay.Holds y (f y)) : Run s (s.endVisit f) := by
  refine .trans (Move.modBay s s.link.position f (hf _)).moves.run ?_
  exact (Move.moves .aside).run

theorem run_miss (s : State) : Run s s.miss := by
  unfold State.miss
  split
  · exact .refl s
  · exact run_endVisit s _ fun y => ⟨⟨rfl, rfl, id⟩, ⟨rfl, .inl rfl⟩⟩

theorem run_report (s : State) (f : BayIdx → State → State) (hf : ∀ b t, Run t (f b t)) : Run s (s.report f) := by
  unfold State.report
  split
  · exact .refl s
  · exact (run_endVisit s Bay.reported fun y => ⟨⟨rfl, rfl, id⟩, ⟨rfl, .inl rfl⟩⟩).trans (hf _ _)

theorem run_writeAnswer (s : State) (b : BayIdx) (c : AnswerCode) (h : Nat) : Run s (s.writeAnswer b c h) :=
  (Move.modBay s b _ ⟨⟨rfl, rfl, id⟩, ⟨rfl, .inl rfl⟩⟩).moves.run

theorem run_withLinkHandle (s : State) (b : BayIdx) (h : Nat) (f : RecIdx → State → State) (hf : ∀ i, Run s (f i s)) :
    Run s (s.withLinkHandle b h f) := by
  unfold State.withLinkHandle
  split
  · exact hf _
  · exact run_writeAnswer _ _ _ _

theorem run_askFor (s : State) (b : BayIdx) (r : Request) (h : (r.terms b .link).Sound) : Run s (s.askFor b r) := by
  unfold State.askFor
  split
  · exact run_writeAnswer _ _ _ _
  · split
    · exact run_writeAnswer _ _ _ _
    · rename_i hb
      split
      · exact (moves_raise _ _).run.trans (run_writeAnswer _ _ _ _)
      · rename_i hf
        exact (moves_create s _ _ _ hf hb h).run.trans (run_writeAnswer _ _ _ _)

theorem run_takeChange (s : State) (b : BayIdx) (h requested floor : Nat) : Run s (s.takeChange b h requested floor) := by
  have hc : ∀ i c, Run s (s.changeRecord b h i c) := fun i c => by
    unfold State.changeRecord
    split
    · exact run_writeAnswer _ _ _ _
    · rename_i e
      exact ((moves_applyChange s i _ _ e).trans (moves_markStale _ _)).run.trans (run_writeAnswer _ _ _ _)
  unfold State.takeChange
  split
  · exact run_writeAnswer _ _ _ _
  · refine run_withLinkHandle s b h _ fun i => ?_
    split
    · exact run_writeAnswer _ _ _ _
    · exact hc _ _

/-! ### Conversions -/

theorem moves_strike (s : State) (i : RecIdx) : Moves X s (s.strike i) := by
  unfold State.strike
  split
  · rename_i t g e
    have h : Moves X s (s.setLife i (.granted t { g with strikes := g.strikes + 1 })) := by
      refine (Move.setLife s i _ ?_ fun t' g' u k e1 e2 _ => ?_).moves
      · rw [e]
        exact .granted rfl id
      · rw [e] at e1
        cases e1
        cases e2
        rfl
    dsimp only
    split
    · exact h.trans (moves_enterRetiring _ _ _)
    · exact h
  · exact .refl s

theorem moves_countCharge (s : State) (b : BayIdx) (r : Nat) : Moves X s (s.countCharge b r) := by
  unfold State.countCharge
  split
  · exact .refl s
  · split
    · exact .refl s
    · refine (Move.modBay s b _ ?_).moves
      split
      · split
        · exact ⟨.refl _, .refl _⟩
        · exact ⟨⟨rfl, rfl, id⟩, ⟨rfl, .inl rfl⟩⟩
      · exact ⟨⟨rfl, rfl, id⟩, ⟨rfl, .inl rfl⟩⟩

theorem moves_latest (s : State) (b : BayIdx) (r : Nat) : Moves X s (s.latest b r) :=
  (Move.modBay s b _ ⟨⟨rfl, rfl, id⟩, ⟨rfl, .inl rfl⟩⟩).moves

theorem moves_judgeScan (s : State) (b : BayIdx) (r : Nat) : Moves X s (s.judgeScan b r) := by
  unfold State.judgeScan
  split
  · split
    · exact moves_requestConfirm _ _
    · exact .refl s
  · split
    · exact moves_rampEnd _ _
    · exact .refl s
  · exact .refl s
  · split
    · exact moves_requestConfirm _ _
    · exact .refl s

/-- A bay in the last line of R102 and R103 has no GRANTED or RETIRING record. -/
theorem State.unloaded_of_stray (s : State) (b : BayIdx) (h : s.watch b = .stray) : (s.bayLife b).map Life.holdsLoad ≠ some true := by
  unfold State.watch at h
  unfold State.bayLife
  cases hr : (s.bay b).record with
  | none => simp
  | some i => cases hl : s.life i <;> simp_all [Life.holdsLoad]

theorem moves_judgeConfirm (s : State) (b : BayIdx) (r : Nat) : Moves X s (s.judgeConfirm b r) := by
  unfold State.judgeConfirm
  split
  · split
    · exact moves_strike _ _
    · exact .refl s
  · split
    · exact moves_rampEnd _ _
    · exact .refl s
  · exact .refl s
  · rename_i h
    split
    · exact moves_blockBay _ _ _ (.inr (s.unloaded_of_stray b h))
    · exact .refl s

theorem moves_quietRule (s : State) (b : BayIdx) (r : Nat) : Moves X s (s.quietRule b r) := by
  unfold State.quietRule
  split
  · exact moves_endCalibration _ _ _
  · exact .refl s

theorem moves_calSample (s : State) (b : BayIdx) (raw : Int) : Moves X s (s.calSample b raw) := by
  unfold State.calSample
  split
  · split
    · exact moves_endCalibration _ _ _
    · split
      · unfold State.completeCalibration
        split
        · exact .trans (Move.modBay s b _ ⟨⟨rfl, rfl, id⟩, ⟨rfl, .inl rfl⟩⟩).moves (moves_endCalibration _ _ _)
        · exact moves_endCalibration _ _ _
      · exact .trans (Move.modBay s b _ ⟨⟨rfl, rfl, id⟩, ⟨rfl, .inl rfl⟩⟩).moves (moves_requestCalibration _ _)
  · exact .refl s

theorem moves_takeTemp (s : State) (r : Nat) : Moves X s (s.takeTemp r) := by
  unfold State.takeTemp
  split
  · refine .trans ?_ (moves_deriveZone _)
    exact Move.moves .aside
  · exact .refl s

theorem moves_deliverScan (s : State) (c : Channel) (r : Nat) : Moves X s (s.deliverScan c r) := by
  unfold State.deliverScan
  split
  · exact (((moves_latest _ _ _).trans (moves_countCharge _ _ _)).trans (moves_judgeScan _ _ _)).trans (moves_quietRule _ _ _)
  · split
    · split
      · exact moves_requestConfirm _ _
      · exact .refl s
    · exact moves_takeTemp _ _

theorem moves_deliverConfirm (s : State) (c : Channel) (r : Nat) : Moves X s (s.deliverConfirm c r) := by
  unfold State.deliverConfirm
  split
  · exact (moves_latest _ _ _).trans (moves_judgeConfirm _ _ _)
  · split
    · exact moves_enterTrip _
    · exact .refl s

theorem moves_deliver (s : State) (v : Conversion) (raw : Int) : Moves X s (s.deliver v raw) := by
  unfold State.deliver
  split
  · exact moves_deliverScan _ _ _
  · exact moves_deliverConfirm _ _ _
  · exact Move.moves .aside
  · split
    · exact moves_calSample _ _ _
    · exact .refl s

theorem moves_converting (s : State) : Moves X s s.converting.1 := by
  unfold State.converting
  split
  · exact .refl s
  · exact Move.moves .aside

theorem moves_nextConversion (s : State) : Moves X s s.nextConversion := Move.moves .aside

end Sys2Proof.Machine
end

section
/-!
Every command and event answers a next state that its moves reach, and an invariant that the moves keep is kept by every step.
-/
set_option Elab.async false

namespace Sys2Proof.Machine

/-- An outcome is a next state that moves and bay parts of a boundary reach. -/
def Reaches (s : State) (o : Host.Outcome State Fault Refusal) : Prop :=
  ∃ t, o = .next t ∧ Run s t

theorem Run.reaches {s t : State} (h : Run s t) : Reaches s (.next t) := ⟨t, rfl, h⟩

/-! ### The commands of the Host Port -/

theorem execStart_reaches (args : List Byte) (s : State) : Reaches s (execStart args s) := by
  refine (run_noArgs s args _ ?_).reaches
  split
  · exact (run_startUp s).ok
  · exact run_refuse s _

theorem execStop_reaches (args : List Byte) (s : State) : Reaches s (execStop args s) := by
  refine (run_noArgs s args _ ?_).reaches
  split
  · exact (Run.refl s).ok
  · split
    · exact run_refuse s _
    · rename_i h
      refine (run_shutDown s fun i => ?_).ok
      cases hi : (s.life i).holdsLoad with
      | false => rfl
      | true => exact absurd ((State.anyHoldsLoad_iff s).mpr ⟨i, hi⟩) h

theorem execRestart_reaches (args : List Byte) (s : State) : Reaches s (execRestart args s) := by
  refine (run_noArgs s args (fun s => s.restarted.ok) ?_).reaches
  exact (run_restarted s).ok

theorem execHoldSet_reaches (args : List Byte) (s : State) : Reaches s (execHoldSet args s) := by
  refine (run_noArgs s args _ ?_).reaches
  refine Run.ok ?_
  split
  · exact .refl s
  · exact (moves_setHoldPort s).run

theorem execHoldClear_reaches (args : List Byte) (s : State) : Reaches s (execHoldClear args s) := by
  refine (run_noArgs s args _ ?_).reaches
  refine Run.ok ?_
  split
  · exact (moves_clearHoldPort s).run
  · exact .refl s

theorem execResume_reaches (args : List Byte) (s : State) : Reaches s (execResume args s) := by
  refine (run_noArgs s args _ ?_).reaches
  split
  · exact (moves_enterWork s).run.ok
  · exact run_refuse s _

theorem execConfigWrite_reaches (args : List Byte) (s : State) : Reaches s (execConfigWrite args s) := by
  refine Run.reaches ?_
  split
  · exact run_configWrite s _ _
  · exact run_refuse s _

theorem execCeilingWrite_reaches (args : List Byte) (s : State) : Reaches s (execCeilingWrite args s) := by
  refine Run.reaches ?_
  split
  · split
    · exact (run_writeCeiling s _).ok
    · exact run_refuse s _
  · exact run_refuse s _

theorem execBayGate_reaches (args : List Byte) (s : State) : Reaches s (execBayGate args s) := by
  refine Run.reaches ?_
  split
  · split
    · exact (run_setGates s _ _).ok
    · split
      · exact (run_setGates s _ _).ok
      · exact run_refuse s _
  · exact run_refuse s _

theorem execAlloc_reaches (args : List Byte) (s : State) : Reaches s (execAlloc args s) := by
  refine Run.reaches ?_
  split
  · split
    · split
      · rename_i h
        exact run_allocFor s _ _ (Request.sound_terms h _ _)
      · exact run_refuse s _
    · exact run_refuse s _
  · exact run_refuse s _

theorem execLookupHandle_reaches (args : List Byte) (s : State) : Reaches s (execLookupHandle args s) :=
  (run_handleArg s args _ fun v => run_withHandle s v _ fun _ => run_answer s _ _).reaches

theorem execLookupBay_reaches (args : List Byte) (s : State) : Reaches s (execLookupBay args s) := by
  refine (run_bayArg s args _ fun b => ?_).reaches
  split
  · exact run_answer s _ _
  · exact run_refuse s _

theorem execReclaim_reaches (args : List Byte) (s : State) : Reaches s (execReclaim args s) := by
  refine (run_handleArg s args _ fun v => run_withHandle s v _ fun i => ?_).reaches
  split
  · rename_i h
    exact (Move.reclaim h).moves.run.ok
  · exact run_refuse s _

theorem execRenew_reaches (args : List Byte) (s : State) : Reaches s (execRenew args s) := by
  refine (run_handleArg s args _ fun v => run_withHandle s v _ fun i => ?_).reaches
  split
  · exact (Run.refl s).ok
  · exact (moves_reloadLease s i).run.ok
  · exact run_refuse s _

theorem execEditOpen_reaches (args : List Byte) (s : State) : Reaches s (execEditOpen args s) := by
  refine (run_handleArg s args _ fun v => run_withHandle s v _ fun i => ?_).reaches
  split
  · rename_i h
    exact run_openWindow s i _ (.inl (by rw [h]; rfl))
  · rename_i h
    exact run_openWindow s i _ (.inr (by rw [h]; rfl))
  · exact run_refuse s _

theorem execEditPut_reaches (args : List Byte) (s : State) : Reaches s (execEditPut args s) := by
  refine Run.reaches ?_
  split
  · split
    · exact run_putWindow s _ fun w => ⟨rfl, rfl⟩
    · exact run_refuse s _
  · exact run_refuse s _

theorem execEditTaper_reaches (args : List Byte) (s : State) : Reaches s (execEditTaper args s) := by
  refine Run.reaches ?_
  split
  · exact run_putWindow s _ fun w => ⟨rfl, rfl⟩
  · exact run_refuse s _

theorem execEditCommit_reaches (args : List Byte) (s : State) : Reaches s (execEditCommit args s) := by
  have hc := (moves_closeWindow (X := fun _ => False) s).run
  refine (run_noArgs s args _ ?_).reaches
  split
  · exact run_refuse s _
  · split
    · exact hc.trans (run_refuse _ _)
    · split
      · exact hc.ok
      · exact run_commitWindow s _

theorem execEditDrop_reaches (args : List Byte) (s : State) : Reaches s (execEditDrop args s) := by
  refine (run_noArgs s args _ ?_).reaches
  split
  · exact (moves_closeWindow s).run.ok
  · exact run_refuse s _

theorem execCalStart_reaches (args : List Byte) (s : State) : Reaches s (execCalStart args s) := by
  refine (run_bayArg s args _ fun b => ?_).reaches
  split
  · exact run_refuse s _
  · rename_i h
    exact (run_startCalibration s b (Bool.eq_false_iff.mpr h)).ok

theorem execSampleRequest_reaches (args : List Byte) (s : State) : Reaches s (execSampleRequest args s) := by
  refine (run_channelArg s args _ fun c => ?_).reaches
  split
  · exact run_refuse s _
  · refine Run.ok (.trans ?_ (moves_requestPort _ _).run)
    exact (Move.moves .aside).run

theorem execClockReturn_reaches (arrival : ReturnArrival) (s : State) : Reaches s (execClockReturn arrival s) := by
  refine (run_noArgs s arrival.args _ ?_).reaches
  split
  · exact run_refuse s _
  · split
    · exact run_refuse s _
    · exact (run_clock s _).ok

/-- A change of the Attention Unit. -/
theorem run_attention (s : State) (a : Attention) : Run s { s with attention := a } := (Move.moves .aside).run

theorem execFlagsRead_reaches (args : List Byte) (s : State) : Reaches s (execFlagsRead args s) :=
  (run_noArgs s args _ ((run_attention s s.attention.see).trans (run_answer _ _ _))).reaches

theorem execFlagsClear_reaches (args : List Byte) (s : State) : Reaches s (execFlagsClear args s) :=
  (run_flagMaskArg s args _ fun m => (run_clearFlags s m).ok).reaches

theorem execFlagsEnable_reaches (args : List Byte) (s : State) : Reaches s (execFlagsEnable args s) :=
  (run_flagMaskArg s args _ fun m => (run_attention s { s.attention with enables := BitVec.ofNat 22 m }).ok).reaches

/-- A command that only reports. -/
theorem noArgs_answer_reaches (s : State) (args : List Byte) (l : State → List Byte) :
    Reaches s (.next (s.noArgs args fun s => s.answer .ok (l s))) :=
  (run_noArgs s args _ (run_answer s _ _)).reaches

/-! ### The Bay Link -/

theorem execPollSend_reaches (s : State) : Reaches s (execPollSend s) := by
  refine Run.reaches ?_
  split
  · refine .trans (Move.modBay s s.nextVisit.position (fun y => { y with answer := none }) ⟨⟨rfl, rfl, id⟩, ⟨rfl, .inl rfl⟩⟩).moves.run ?_
    exact (Move.moves .aside).run
  · exact .refl s

theorem execAsk_reaches (cls : Byte) (requested floor : Half) (lease mask value : Byte) (s : State) :
    Reaches s (execAsk cls requested floor lease mask value s) := by
  refine (run_report s _ fun b t => ?_).reaches
  split
  · rename_i h
    unfold askRequest at h
    split at h
    · cases h
    · exact run_askFor t b _ (Request.sound_terms h _ _)
  · exact run_writeAnswer _ _ _ _

theorem execChange_reaches (h requested floor : Half) (s : State) : Reaches s (execChange h requested floor s) :=
  (run_report s _ fun b t => run_takeChange t b _ _ _).reaches

theorem execLinkRenew_reaches (h : Half) (s : State) : Reaches s (execLinkRenew h s) := by
  refine (run_report s _ fun b t => run_withLinkHandle t b _ _ fun i => ?_).reaches
  split
  · exact run_writeAnswer _ _ _ _
  · exact (moves_reloadLease t i).run.trans (run_writeAnswer _ _ _ _)

theorem execRelease_reaches (h : Half) (s : State) : Reaches s (execRelease h s) := by
  refine (run_report s _ fun b t => run_withLinkHandle t b _ _ fun i => ?_).reaches
  split
  · exact (moves_enterSpent t i _ _).run.trans (run_writeAnswer _ _ _ _)
  · exact (moves_enterRetiring t i _).run.trans (run_writeAnswer _ _ _ _)
  · exact run_writeAnswer _ _ _ _

/-! ### The part's own events -/

theorem execAdmissionPass_reaches (s : State) : Reaches s (execAdmissionPass s) := by
  refine Run.reaches ?_
  split
  · exact .refl s
  · split
    · rename_i h
      exact (moves_pass s h.1 h.2).run
    · exact (moves_alloc s { s.alloc with passDue := false } rfl rfl rfl).run

theorem execPeriodBoundary_reaches (later : List BoundaryPart) (s : State) : Reaches s (execPeriodBoundary later s) := by
  refine Run.reaches ?_
  split
  · exact (run_finishBoundary s).trans ((run_timer _ _).trans (run_takeParts _ _))
  · exact .refl s

theorem execMillisecondTick_reaches (s : State) : Reaches s (execMillisecondTick s) := by
  refine Run.reaches ?_
  split
  · exact (run_finishBoundary s).trans (run_timer _ _)
  · exact .refl s

theorem execStrikeWindowEnd_reaches (i : RecIdx) (s : State) : Reaches s (execStrikeWindowEnd i s) := by
  refine Run.reaches ?_
  split
  · split
    · exact run_takeOutstanding _ _
    · exact .refl s
  · exact .refl s

theorem execCloseWindowEnd_reaches (s : State) : Reaches s (execCloseWindowEnd s) := by
  refine Run.reaches ?_
  split
  · exact run_takeOutstanding _ _
  · exact .refl s

theorem execSettleEnd_reaches (b : BayIdx) (s : State) : Reaches s (execSettleEnd b s) := by
  refine Run.reaches ?_
  split
  · exact run_takeOutstanding _ _
  · exact .refl s

theorem execSignalPeriodStart_reaches (s : State) : Reaches s (execSignalPeriodStart s) := by
  refine (Run.trans (Move.modBays s (fun y => { y with inEffectDuty := y.stagedDuty })
    fun y => ⟨⟨rfl, rfl, id⟩, ⟨rfl, .inl rfl⟩⟩).moves.run ?_).reaches
  exact run_clock _ _

theorem execConversionEnd_reaches (reading : Reading) (s : State) : Reaches s (execConversionEnd reading s) := by
  have h := (moves_converting (X := fun _ => False) s).run
  refine Run.reaches ?_
  split
  · exact (h.trans (moves_nextConversion _).run).trans (moves_deliver _ _ _).run
  · exact (h.trans (moves_deliver _ _ _).run).trans (moves_nextConversion _).run

theorem execCheckWindowEnd_reaches (cycles : Nat) (s : State) : Reaches s (execCheckWindowEnd cycles s) :=
  ((run_clock s _).trans (run_judgeWindow _ _)).reaches

/-! ### All of them -/

/-- Every command and event is taken in every state, and moves reach what it answers. -/
theorem exec_reaches (c : Instr) (s : State) : Reaches s (exec c s) := by
  cases c with
  | deviceReset => exact (run_reset s).reaches
  | start args => exact execStart_reaches args s
  | stop args => exact execStop_reaches args s
  | restart args => exact execRestart_reaches args s
  | holdSet args => exact execHoldSet_reaches args s
  | holdClear args => exact execHoldClear_reaches args s
  | resume args => exact execResume_reaches args s
  | configWrite args => exact execConfigWrite_reaches args s
  | configRead args => exact noArgs_answer_reaches s args _
  | ceilingWrite args => exact execCeilingWrite_reaches args s
  | bayGate args => exact execBayGate_reaches args s
  | alloc args => exact execAlloc_reaches args s
  | lookupHandle args => exact execLookupHandle_reaches args s
  | lookupBay args => exact execLookupBay_reaches args s
  | retireGraceful args => exact (run_retire s args).reaches
  | retireImmediate args => exact (run_retire s args).reaches
  | reclaim args => exact execReclaim_reaches args s
  | renew args => exact execRenew_reaches args s
  | editOpen args => exact execEditOpen_reaches args s
  | editPut args => exact execEditPut_reaches args s
  | editTaper args => exact execEditTaper_reaches args s
  | editCommit args => exact execEditCommit_reaches args s
  | editDrop args => exact execEditDrop_reaches args s
  | queueRead args => exact noArgs_answer_reaches s args _
  | orderRead args => exact noArgs_answer_reaches s args _
  | loadRead args => exact noArgs_answer_reaches s args _
  | bayRead args => exact (run_bayArg s args _ fun _ => run_answer s _ _).reaches
  | bayUnblock args => exact (run_bayArg s args _ fun b => run_unblock s b).reaches
  | calStart args => exact execCalStart_reaches args s
  | sampleRequest args => exact execSampleRequest_reaches args s
  | sampleRead args => exact (run_channelArg s args _ fun _ => run_answer s _ _).reaches
  | clockReturn arrival => exact execClockReturn_reaches arrival s
  | clockRead args => exact noArgs_answer_reaches s args _
  | flagsRead args => exact execFlagsRead_reaches args s
  | flagsClear args => exact execFlagsClear_reaches args s
  | flagsEnable args => exact execFlagsEnable_reaches args s
  | identRead args => exact noArgs_answer_reaches s args _
  | badCommand code args => exact (run_refuse s _).reaches
  | transactionAbort sent => exact (Move.moves .aside).run.reaches
  | pollSend => exact execPollSend_reaches s
  | replyWindowExpiry => exact (run_miss s).reaches
  | badFrame => exact (run_miss s).reaches
  | foreignFrame => exact (run_miss s).reaches
  | reportNone => exact (run_report s _ fun _ t => .refl t).reaches
  | ask cls requested floor lease mask value => exact execAsk_reaches cls requested floor lease mask value s
  | change handle requested floor => exact execChange_reaches handle requested floor s
  | linkRenew handle => exact execLinkRenew_reaches handle s
  | release handle => exact execRelease_reaches handle s
  | admissionPass => exact execAdmissionPass_reaches s
  | periodBoundary later => exact execPeriodBoundary_reaches later s
  | leaseEnd i => exact (run_recordEvent s i _).reaches
  | taperStepAdvance i => exact (run_recordEvent s i _).reaches
  | taperEnd i => exact (run_recordEvent s i _).reaches
  | rampTimeout i => exact (run_recordEvent s i _).reaches
  | strikeWindowEnd i => exact execStrikeWindowEnd_reaches i s
  | closeWindowEnd => exact execCloseWindowEnd_reaches s
  | settleEnd b => exact execSettleEnd_reaches b s
  | signalPeriodStart => exact execSignalPeriodStart_reaches s
  | conversionEnd reading => exact execConversionEnd_reaches reading s
  | checkWindowEnd cycles => exact execCheckWindowEnd_reaches cycles s
  | millisecondTick => exact execMillisecondTick_reaches s

/-- A predicate that does not speak of the queue of waiting commands and that every move and bay part of a boundary keeps is kept by every
step. -/
theorem step_keeps {P : State → Prop} (hM : ∀ s t, Move (fun _ => False) s t → P s → P t) (hB : ∀ s b, P s → P (s.bayBoundary b))
    (hQ : ∀ (s : State) l, P s → P { s with pending := l }) {s t : State} (h : step s = .next t) (hs : P s) : P t := by
  unfold step at h
  split at h
  · cases h
    exact hs
  · rename_i c rest _
    obtain ⟨u, e, r⟩ := exec_reaches c { s with pending := rest }
    rw [e] at h
    cases h
    exact r.keeps hM hB (hQ s rest hs)

/-! ### The queue of waiting commands -/

theorem pending_reclaimRecord (s : State) (i : RecIdx) (b : BayIdx) : (s.reclaimRecord i b).pending = s.pending := by
  unfold State.reclaimRecord
  exact (quiet_markStale _ i).pending

theorem Move.pending {X : BayIdx → Prop} {s t : State} (h : Move X s t) : t.pending = s.pending := by
  cases h with
  | amend a _ => exact a.pending
  | requeue _ _ _ => exact (quiet_requeue _ _ _).pending
  | create _ _ _ h => rw [h.frame]
  | spend _ h => rw [h.frame]
  | retire _ h => rw [h.frame]
  | admits _ _ _ _ h => rw [h.frame]
  | seize _ _ _ _ => rfl
  | trip h => rw [h.frame]
  | reclaim _ => exact pending_reclaimRecord _ _ _
  | vacate _ _ _ _ _ _ h => exact h
  | stop _ => rfl

theorem Run.pending {s t : State} (h : Run s t) : t.pending = s.pending :=
  h.keeps (P := fun u => u.pending = s.pending) (fun _ _ m e => m.pending.trans e)
    (fun u b e => (quiet_bayBoundary u b).pending.trans e) rfl

end Sys2Proof.Machine

open Sys2Proof Sys2Proof.Machine

/-- Settles O2: what a command does is a sequence of moves, and no move touches the queue. -/
theorem everyCommandCompletes : Obligations.EveryCommandCompletes := fun c s => by
  obtain ⟨t, e, r⟩ := exec_reaches c s
  exact ⟨t, e, r.pending⟩

end

section
/-!
The free list, the wait queue and the grant order list hold each record where its state calls for it, and every step keeps this (O53).
-/
set_option Elab.async false

namespace Sys2Proof.Machine

variable {X : BayIdx → Prop} {s t : State}

/-! ### What an amended life keeps -/

theorem Life.Amends.free {l k : Life} (h : l.Amends k) : k = .free ↔ l = .free := by
  cases h <;> simp

theorem Life.Amends.isWaiting {l k : Life} (h : l.Amends k) : k.isWaiting = l.isWaiting := by
  cases h <;> rfl

theorem Life.Amends.isGranted {l k : Life} (h : l.Amends k) : k.isGranted = l.isGranted := by
  cases h <;> rfl

theorem Life.Amends.holdsLoad {l k : Life} (h : l.Amends k) : k.holdsLoad = l.holdsLoad := by
  cases h <;> rfl

theorem Life.Amends.liveBay {l k : Life} (h : l.Amends k) : k.liveTerms?.map Terms.bay = l.liveTerms?.map Terms.bay := by
  cases h <;> simp [Life.liveTerms?, *]

theorem State.classOf_eq (s : State) (i : RecIdx) (u : Terms) (h : (s.life i).terms? = some u) : s.classOf i = u.cls := by
  rw [State.classOf, h]
  rfl

theorem State.classOf_congr {i : RecIdx} (h : t.life i = s.life i) : t.classOf i = s.classOf i := by
  rw [State.classOf, State.classOf, h]

/-- A WAITING record keeps its class. -/
theorem Life.Amends.classOf {i : RecIdx} (h : (s.life i).Amends (t.life i)) (hw : (s.life i).isWaiting = true) :
    t.classOf i = s.classOf i := by
  rw [State.classOf, State.classOf]
  generalize s.life i = l at *
  generalize t.life i = k at *
  cases h with
  | same => rfl
  | waiting _ cls _ => simpa [Life.terms?] using cls
  | granted _ _ => cases hw
  | retiring _ _ => cases hw

/-! ### One list after a move -/

theorem freeListExact_congr (hf : t.pool.freeList = s.pool.freeList) (hl : ∀ j, t.life j = .free ↔ s.life j = .free)
    (h : s.FreeListExact) : t.FreeListExact := by
  obtain ⟨hn, hm⟩ := h
  exact ⟨hf ▸ hn, fun j => by rw [hf, hm, hl]⟩

/-- The other records stand, and the record that moves was not FREE and does not become it. -/
theorem freeListExact_move {i : RecIdx} (hf : t.pool.freeList = s.pool.freeList) (hs : s.life i ≠ .free) (ht : t.life i ≠ .free)
    (ho : ∀ j, j ≠ i → t.life j = s.life j) : s.FreeListExact → t.FreeListExact :=
  freeListExact_congr hf fun j => by
    by_cases hj : j = i
    · subst hj
      simp [hs, ht]
    · rw [ho j hj]

theorem waitQueueExact_congr (hq : t.alloc.waitQueue = s.alloc.waitQueue) (hl : ∀ j, (t.life j).isWaiting = (s.life j).isWaiting)
    (hc : ∀ j, (s.life j).isWaiting = true → t.classOf j = s.classOf j) (h : s.WaitQueueExact) : t.WaitQueueExact := by
  obtain ⟨hn, hm, hp⟩ := h
  refine ⟨hq ▸ hn, fun j => by rw [hq, hm, hl], ?_⟩
  rw [hq]
  refine hp.imp_of_mem fun {i j} hi hj hij => ?_
  rw [hc i ((hm i).mp hi), hc j ((hm j).mp hj)]
  exact hij

/-- A record that does not wait is off the queue. -/
theorem waitQueueExact_filter {i : RecIdx} (hq : t.alloc.waitQueue = s.alloc.waitQueue.filter (· ≠ i))
    (ht : (t.life i).isWaiting = false) (ho : ∀ j, j ≠ i → t.life j = s.life j) (h : s.WaitQueueExact) : t.WaitQueueExact := by
  obtain ⟨hn, hm, hp⟩ := h
  refine ⟨hq ▸ hn.filter _, fun j => ?_, ?_⟩
  · rw [hq, List.mem_filter, hm]
    by_cases hj : j = i
    · subst hj
      simp [ht]
    · simp [hj, ho j hj]
  · rw [hq]
    refine (hp.filter _).imp_of_mem fun {j k} hj hk hjk => ?_
    simp only [List.mem_filter, decide_eq_true_eq] at hj hk
    rw [State.classOf_congr (ho j hj.2), State.classOf_congr (ho k hk.2)]
    exact hjk

/-- A record that enters a class-descending queue after the last entry of its class or higher leaves it class-descending (R35, R36). -/
theorem pairwise_insert {f : RecIdx → Fin 4} {i : RecIdx} {l₁ l₂ : List RecIdx} (hp : (l₁ ++ l₂).Pairwise fun j k => f k ≤ f j)
    (h1 : ∀ j ∈ l₁.getLast?, f i ≤ f j) (h2 : ∀ j ∈ l₂, f j < f i) : (l₁ ++ i :: l₂).Pairwise fun j k => f k ≤ f j := by
  obtain ⟨p1, p2, p12⟩ := List.pairwise_append.mp hp
  have hle : ∀ j ∈ l₁, f i ≤ f j := by
    intro j hj
    obtain ⟨l, x, rfl⟩ := (List.eq_nil_or_concat' l₁).resolve_left (List.ne_nil_of_mem hj)
    have hx : f i ≤ f x := h1 x (by simp)
    rcases List.mem_append.mp hj with hj | hj
    · exact hx.trans ((List.pairwise_append.mp p1).2.2 j hj x (by simp))
    · rw [List.mem_singleton.mp hj]
      exact hx
  refine List.pairwise_append.mpr ⟨p1, List.pairwise_cons.mpr ⟨fun k hk => (h2 k hk).le, p2⟩, fun j hj k hk => ?_⟩
  rcases List.mem_cons.mp hk with rfl | hk
  · exact hle j hj
  · exact p12 j hj k hk

/-- A WAITING record enters the queue of the other WAITING records. -/
theorem waitQueueExact_insert {i : RecIdx} {l₁ l₂ : List RecIdx} (hq : t.alloc.waitQueue = l₁ ++ i :: l₂)
    (ht : (t.life i).isWaiting = true) (ho : ∀ j, j ≠ i → t.life j = s.life j) (hn : (l₁ ++ l₂).Nodup)
    (hm : ∀ j, j ∈ l₁ ++ l₂ ↔ j ≠ i ∧ (s.life j).isWaiting = true) (hp : (l₁ ++ l₂).Pairwise fun j k => t.classOf k ≤ t.classOf j)
    (h1 : ∀ j ∈ l₁.getLast?, t.classOf i ≤ t.classOf j) (h2 : ∀ j ∈ l₂, t.classOf j < t.classOf i) : t.WaitQueueExact := by
  have hi : i ∉ l₁ ++ l₂ := fun h => ((hm i).mp h).1 rfl
  refine ⟨?_, fun j => ?_, ?_⟩
  · rw [hq]
    exact List.nodup_middle.mpr (List.nodup_cons.mpr ⟨hi, hn⟩)
  · rw [hq, List.perm_middle.mem_iff, List.mem_cons, hm]
    by_cases hj : j = i
    · subst hj
      simp [ht]
    · simp [hj, ho j hj]
  · rw [hq]
    exact pairwise_insert hp h1 h2

theorem grantOrderExact_congr (hg : t.alloc.grantOrder = s.alloc.grantOrder) (hl : ∀ j, (t.life j).isGranted = (s.life j).isGranted)
    (h : s.GrantOrderExact) : t.GrantOrderExact := by
  obtain ⟨hn, hm⟩ := h
  exact ⟨hg ▸ hn, fun j => by rw [hg, hm, hl]⟩

/-- A record that is not GRANTED is off the list. -/
theorem grantOrderExact_filter {i : RecIdx} (hg : t.alloc.grantOrder = s.alloc.grantOrder.filter (· ≠ i))
    (ht : (t.life i).isGranted = false) (ho : ∀ j, j ≠ i → t.life j = s.life j) (h : s.GrantOrderExact) : t.GrantOrderExact := by
  obtain ⟨hn, hm⟩ := h
  refine ⟨hg ▸ hn.filter _, fun j => ?_⟩
  rw [hg, List.mem_filter, hm]
  by_cases hj : j = i
  · subst hj
    simp [ht]
  · simp [hj, ho j hj]

/-- A record that becomes GRANTED joins the tail (R38). -/
theorem grantOrderExact_append {i : RecIdx} (hg : t.alloc.grantOrder = s.alloc.grantOrder ++ [i]) (hs : (s.life i).isGranted = false)
    (ht : (t.life i).isGranted = true) (ho : ∀ j, j ≠ i → t.life j = s.life j) (h : s.GrantOrderExact) : t.GrantOrderExact := by
  obtain ⟨hn, hm⟩ := h
  have hi : i ∉ s.alloc.grantOrder := fun h => by simp [(hm i).mp h] at hs
  refine ⟨?_, fun j => ?_⟩
  · rw [hg]
    exact List.nodup_append.mpr ⟨hn, List.nodup_singleton i, fun j hj k hk e => hi (by rw [← List.mem_singleton.mp hk, ← e]; exact hj)⟩
  · rw [hg, List.mem_append, hm, List.mem_singleton]
    by_cases hj : j = i
    · subst hj
      simp [ht]
    · simp [hj, ho j hj]

/-- A record not GRANTED before and after leaves the list as it is. -/
theorem grantOrderExact_move {i : RecIdx} (hg : t.alloc.grantOrder = s.alloc.grantOrder) (hs : (s.life i).isGranted = false)
    (ht : (t.life i).isGranted = false) (ho : ∀ j, j ≠ i → t.life j = s.life j) : s.GrantOrderExact → t.GrantOrderExact :=
  grantOrderExact_congr hg fun j => by
    by_cases hj : j = i
    · subst hj
      rw [hs, ht]
    · rw [ho j hj]

/-! ### What the moves that are operations do to records and lists -/

theorem State.life_requeue (s : State) (i j : RecIdx) (c : Fin 4) : (s.requeue i c).life j = s.life j :=
  State.life_congr (State.pool_trigger _) j

/-- A record that is requeued stands after the last entry of its class or higher, and the requeueing is a trigger (R35, R36, R39). -/
theorem State.requeue_eq (s : State) (i : RecIdx) (c : Fin 4) :
    ∃ l₁ l₂, s.alloc.waitQueue.filter (· ≠ i) = l₁ ++ l₂ ∧ (∀ j ∈ l₂, s.classOf j < c) ∧ (∀ j ∈ l₁.getLast?, c ≤ s.classOf j) ∧
      s.requeue i c = { s with alloc := { s.alloc with
        waitQueue := l₁ ++ i :: l₂
        passDue := s.alloc.passDue || (s.alloc.opState == .running && !s.alloc.reclaiming) } } := by
  obtain ⟨l₁, l₂, e1, e2, h2, h1⟩ := insertAfterLast_eq (fun j => decide (c ≤ s.classOf j)) i (s.alloc.waitQueue.filter (· ≠ i))
  refine ⟨l₁, l₂, e1, fun j hj => by simpa using h2 j hj, fun j hj => by simpa using h1 j hj, ?_⟩
  rw [← e2, State.requeue, State.trigger_eq]
  rfl

theorem State.record_reclaimRecord (s : State) (i j : RecIdx) (b : BayIdx) :
    (s.reclaimRecord i b).record j = if j = i then { generation := (s.record i).generation + 1, life := .free } else s.record j := by
  unfold State.reclaimRecord
  rw [State.record_markStale]
  exact State.record_setRecord (s.modBay b _) i _ j

theorem State.life_reclaimRecord (s : State) (i j : RecIdx) (b : BayIdx) :
    (s.reclaimRecord i b).life j = if j = i then .free else s.life j := by
  rw [State.life, State.record_reclaimRecord]
  split <;> rfl

@[simp] theorem State.alloc_reclaimRecord (s : State) (i : RecIdx) (b : BayIdx) : (s.reclaimRecord i b).alloc = s.alloc := by
  unfold State.reclaimRecord
  exact State.alloc_markStale _ _

theorem State.freeList_reclaimRecord (s : State) (i : RecIdx) (b : BayIdx) :
    (s.reclaimRecord i b).pool.freeList = s.pool.freeList ++ [i] := by
  unfold State.reclaimRecord
  exact (quiet_markStale _ _).freeList

/-! ### The three lists after each move -/

theorem Move.freeListExact (m : Move X s t) (h : s.FreeListExact) : t.FreeListExact := by
  cases m with
  | amend a _ => exact freeListExact_congr a.freeList (fun i => (a.lives i).free) h
  | @requeue i _ u r q e _ _ =>
    have k := (quiet_setLife s i (.waiting u q) (by simp [e])).trans (quiet_requeue _ i u.cls)
    exact freeListExact_congr k.freeList k.free h
  | @create _ i rest _ hf _ _ c =>
    obtain ⟨hn, hm⟩ := h
    rw [hf] at hn hm
    obtain ⟨hi, hn⟩ := List.nodup_cons.mp hn
    refine ⟨c.freeList ▸ hn, fun j => ?_⟩
    rw [c.freeList]
    by_cases hj : j = i
    · subst hj
      simp [hi, c.life]
    · rw [c.otherLives j hj, ← hm j, List.mem_cons]
      simp [hj]
  | @spend _ i _ _ _ hl e =>
    exact freeListExact_move e.freeList (fun hf => by rw [hf] at hl; cases hl) (by simp [e.life]) e.otherLives h
  | retire hl e => exact freeListExact_move e.freeList (by simp [hl]) (by simp [e.life]) e.otherLives h
  | admits hl _ _ _ e => exact freeListExact_move (by rw [e.frame]) (by simp [hl]) (by simp [e.life]) e.otherLives h
  | seize _ _ _ _ => exact h
  | trip e =>
    refine freeListExact_congr (by rw [e.frame]) (fun j => ?_) h
    rw [e.lives j]
    cases s.life j <;> simp
  | @reclaim i _ _ _ hl =>
    obtain ⟨hn, hm⟩ := h
    have hi : i ∉ s.pool.freeList := fun hf => by rw [(hm i).mp hf] at hl; cases hl
    refine ⟨?_, fun j => ?_⟩
    · rw [State.freeList_reclaimRecord]
      exact (List.perm_append_singleton i _).nodup_iff.mpr (List.nodup_cons.mpr ⟨hi, hn⟩)
    · rw [State.freeList_reclaimRecord, State.life_reclaimRecord, List.mem_append, List.mem_singleton, hm]
      by_cases hj : j = i <;> simp [hj]
  | vacate _ hf _ _ _ _ _ => exact hf h
  | stop _ => exact h

theorem Move.waitQueueExact (m : Move X s t) (hf : s.FreeListExact) (h : s.WaitQueueExact) : t.WaitQueueExact := by
  cases m with
  | amend a _ =>
    exact waitQueueExact_congr a.waitQueue (fun i => (a.lives i).isWaiting) (fun i hw => (a.lives i).classOf hw) h
  | @requeue i v u r q e _ _ =>
    obtain ⟨hn, hm, hp⟩ := h
    obtain ⟨l₁, l₂, e1, h2, h1, eq⟩ := (s.setLife i (.waiting u q)).requeue_eq i u.cls
    have hlife : ∀ j, j ≠ i → ((s.setLife i (.waiting u q)).requeue i u.cls).life j = s.life j := fun j hj => by
      rw [State.life_requeue, State.life_setLife, if_neg hj]
    have hself : ((s.setLife i (.waiting u q)).requeue i u.cls).life i = .waiting u q := by
      rw [State.life_requeue, State.life_setLife_self]
    have hcls : ∀ j, ((s.setLife i (.waiting u q)).requeue i u.cls).classOf j = (s.setLife i (.waiting u q)).classOf j := fun j =>
      State.classOf_congr (State.life_requeue ..)
    have hi : ((s.setLife i (.waiting u q)).requeue i u.cls).classOf i = u.cls := State.classOf_eq _ _ _ (by rw [hself]; rfl)
    have e1 : s.alloc.waitQueue.filter (· ≠ i) = l₁ ++ l₂ := e1
    refine waitQueueExact_insert (s := s) (i := i) (by rw [eq]) (by rw [hself]; rfl) hlife (e1 ▸ hn.filter _) (fun j => ?_) ?_ ?_ ?_
    · rw [← e1, List.mem_filter, hm]
      simp [and_comm]
    · rw [← e1]
      refine (hp.filter _).imp_of_mem fun {j k} hj hk hjk => ?_
      simp only [List.mem_filter, decide_eq_true_eq] at hj hk
      rw [State.classOf_congr (hlife j hj.2), State.classOf_congr (hlife k hk.2)]
      exact hjk
    · intro j hj
      rw [hi, hcls]
      exact h1 j hj
    · intro j hj
      rw [hi, hcls]
      exact h2 j hj
  | @create _ i rest u hfl _ _ c =>
    obtain ⟨hn, hm, hp⟩ := h
    have hfree : s.life i = .free := (hf.2 i).mp (by rw [hfl]; simp)
    have hi : i ∉ s.alloc.waitQueue := fun hw => by
      have := (hm i).mp hw
      rw [hfree] at this
      cases this
    obtain ⟨l₁, l₂, e1, e2, h2, h1⟩ := c.place
    have hcls : t.classOf i = u.cls := State.classOf_eq _ _ _ (by rw [c.life]; rfl)
    refine waitQueueExact_insert (s := s) e2 (by rw [c.life]; rfl) c.otherLives (e1 ▸ hn) (fun j => ?_) ?_ (by rwa [hcls]) (by rwa [hcls])
    · rw [← e1, hm]
      refine ⟨fun hw => ⟨?_, hw⟩, And.right⟩
      rintro rfl
      exact hi ((hm j).mpr hw)
    · rw [← e1]
      refine hp.imp_of_mem fun {j k} hj hk hjk => ?_
      have hne : ∀ x ∈ s.alloc.waitQueue, x ≠ i := fun x hx e => hi (e ▸ hx)
      rw [State.classOf_congr (c.otherLives j (hne j hj)), State.classOf_congr (c.otherLives k (hne k hk))]
      exact hjk
  | spend _ e => exact waitQueueExact_filter e.waitQueue (by rw [e.life]; rfl) e.otherLives h
  | retire _ e => exact waitQueueExact_filter e.waitQueue (by rw [e.life]; rfl) e.otherLives h
  | admits _ _ _ _ e => exact waitQueueExact_filter (by rw [e.frame]) (by rw [e.life]; rfl) e.otherLives h
  | seize _ _ _ _ => exact h
  | trip e =>
    refine waitQueueExact_congr (e.waitQueue h) (fun j => ?_) (fun j _ => ?_) h
    · rw [e.lives j]
      cases s.life j <;> rfl
    · rw [State.classOf, State.classOf, e.lives j]
      cases s.life j <;> rfl
  | @reclaim i u _ _ hl =>
    have hlife := fun j => s.life_reclaimRecord i j u.bay
    refine waitQueueExact_congr (by rw [State.alloc_reclaimRecord]) (fun j => ?_) (fun j hw => State.classOf_congr ?_) h
    · rw [hlife]
      split
      · subst_vars
        rw [hl]
        rfl
      · rfl
    · rw [hlife, if_neg]
      rintro rfl
      rw [hl] at hw
      cases hw
  | vacate hl _ _ hw _ _ _ => exact ⟨by rw [hw]; exact List.nodup_nil, fun i => by simp [hw, hl, Life.isWaiting], by rw [hw]; exact .nil⟩
  | stop _ => exact h

theorem Move.grantOrderExact (m : Move X s t) (hf : s.FreeListExact) (h : s.GrantOrderExact) : t.GrantOrderExact := by
  cases m with
  | amend a _ => exact grantOrderExact_congr a.grantOrder (fun i => (a.lives i).isGranted) h
  | @requeue i _ u _ q e _ _ =>
    refine grantOrderExact_move (i := i) ?_ (by rw [e]; rfl) ?_ (fun j hj => ?_) h
    · obtain ⟨_, _, _, _, _, eq⟩ := (s.setLife i (.waiting u q)).requeue_eq i u.cls
      rw [eq]
      rfl
    · rw [State.life_requeue, State.life_setLife_self]
      rfl
    · rw [State.life_requeue, State.life_setLife, if_neg hj]
  | @create _ i rest u hfl _ _ c =>
    have hfree : s.life i = .free := (hf.2 i).mp (by rw [hfl]; simp)
    exact grantOrderExact_move (by rw [c.frame]) (by rw [hfree]; rfl) (by rw [c.life]; rfl) c.otherLives h
  | spend _ e => exact grantOrderExact_filter e.grantOrder (by rw [e.life]; rfl) e.otherLives h
  | retire _ e => exact grantOrderExact_filter e.grantOrder (by rw [e.life]; rfl) e.otherLives h
  | admits hl _ _ _ e => exact grantOrderExact_append (by rw [e.frame]) (by rw [hl]; rfl) (by rw [e.life]; rfl) e.otherLives h
  | seize _ _ _ _ => exact h
  | trip e =>
    have hg : t.alloc.grantOrder = [] := by rw [e.frame]
    refine ⟨hg ▸ List.nodup_nil, fun j => ?_⟩
    rw [hg, e.lives j]
    cases s.life j <;> simp [Life.isGranted]
  | @reclaim i u _ _ hl =>
    refine grantOrderExact_move (i := i) (by rw [State.alloc_reclaimRecord]) (by rw [hl]; rfl) ?_ (fun j hj => ?_) h
    · rw [State.life_reclaimRecord, if_pos rfl]
      rfl
    · rw [State.life_reclaimRecord, if_neg hj]
  | vacate hl _ _ _ hg _ _ => exact ⟨by rw [hg]; exact List.nodup_nil, fun i => by simp [hg, hl, Life.isGranted]⟩
  | stop _ => exact h

theorem Move.listsExact (m : Move X s t) (h : s.ListsExact) : t.ListsExact :=
  ⟨m.freeListExact h.1, m.waitQueueExact h.1 h.2.1, m.grantOrderExact h.1 h.2.2⟩

/-! ### The bay part of a boundary -/

/-- A predicate that says nothing of limits, duties and graces is kept by the bay part of a boundary when the moves keep it, those that
activate a record without its limit too. -/
theorem bayBoundary_keeps {P : State → Prop} (hM : ∀ s t, Move (fun _ => True) s t → P s → P t)
    (hL : ∀ (s : State) b n, P s → P (s.modBay b fun y => y.setLimit n)) (s : State) (b : BayIdx) (h : P s) : P (s.bayBoundary b) := by
  obtain ⟨m, hm, e⟩ := bayBoundary_moves (X := fun _ => True) s b fun _ _ _ _ _ => trivial
  rw [e]
  exact hL _ _ _ (hm.keeps hM h)

/-- The bay part of a boundary keeps the lists. -/
theorem listsExact_bayBoundary (s : State) (b : BayIdx) (h : s.ListsExact) : (s.bayBoundary b).ListsExact :=
  bayBoundary_keeps (fun _ _ m => m.listsExact) (fun _ _ _ h => h) s b h

end Sys2Proof.Machine

open Sys2Proof Sys2Proof.Machine

/-- Settles O53: every move keeps the three lists exact. -/
theorem listsStayExact : Obligations.ListsStayExact :=
  ⟨State.classOf_eq, fun _ _ h e => step_keeps (fun _ _ m => m.listsExact) listsExact_bayBoundary (fun _ _ h => h) e h⟩

end

section
/-!
Every step keeps the terms sound and the staged grants between floor and requested, and an open window that is not STALE on a WAITING or GRANTED
record (O60).
-/
set_option Elab.async false

namespace Sys2Proof.Machine

variable {X : BayIdx → Prop} {s t : State}

/-! ### Grants within their terms -/

/-- What R24 and R25 ask of one record. -/
def Life.Legal (l : Life) : Prop :=
  (∀ t, l.terms? = some t → t.Sound) ∧ ∀ t g, l = .granted t g → t.floor ≤ g.staged ∧ g.staged ≤ t.requested

theorem Life.legal_free : Life.free.Legal := ⟨fun _ h => (nomatch h), fun _ _ h => (nomatch h)⟩

theorem Life.legal_waiting {t : Terms} {r : WaitReason} : (Life.waiting t r).Legal ↔ t.Sound :=
  ⟨fun h => h.1 t rfl, fun h => ⟨fun u e => by cases e; exact h, fun _ _ e => (nomatch e)⟩⟩

theorem Life.legal_granted {t : Terms} {g : Grant} : (Life.granted t g).Legal ↔ g.Within t :=
  ⟨fun h => ⟨h.1 t rfl, h.2 t g rfl⟩, fun h => ⟨fun u e => by cases e; exact h.1, fun u k e => by cases e; exact h.2⟩⟩

theorem Life.legal_retiring {t : Terms} {a n : Nat} {c : EndCause} : (Life.retiring t a c n).Legal ↔ t.Sound :=
  ⟨fun h => h.1 t rfl, fun h => ⟨fun u e => by cases e; exact h, fun _ _ e => (nomatch e)⟩⟩

theorem Life.legal_spent {t : Terms} {c : EndCause} {f : Bool} : (Life.spent t c f).Legal ↔ t.Sound :=
  ⟨fun h => h.1 t rfl, fun h => ⟨fun u e => by cases e; exact h, fun _ _ e => (nomatch e)⟩⟩

theorem Life.Amends.legal {l k : Life} (h : l.Amends k) (hl : l.Legal) : k.Legal := by
  cases h with
  | same => exact hl
  | waiting _ _ sound => exact Life.legal_waiting.mpr (sound (Life.legal_waiting.mp hl))
  | granted _ within => exact Life.legal_granted.mpr (within (Life.legal_granted.mp hl))
  | retiring _ sound => exact Life.legal_retiring.mpr (sound (Life.legal_retiring.mp hl))

theorem Life.terms?_of_liveTerms? {l : Life} {u : Terms} (h : l.liveTerms? = some u) : l.terms? = some u := by
  cases l <;> first | exact h | cases h

/-- One record moves, and what R24 and R25 ask of it holds afterwards. -/
theorem grantsWithinTerms_move {i : RecIdx} (hi : (t.life i).Legal) (ho : ∀ j, j ≠ i → t.life j = s.life j)
    (h : s.GrantsWithinTerms) : t.GrantsWithinTerms := fun j => by
  by_cases hj : j = i
  · subst hj
    exact hi
  · rw [ho j hj]
    exact h j

theorem Move.grantsWithinTerms (m : Move X s t) (h : s.GrantsWithinTerms) : t.GrantsWithinTerms := by
  have hl : ∀ i, (s.life i).Legal := h
  cases m with
  | amend a _ => exact fun i => (a.lives i).legal (h i)
  | @requeue i v u r q e _ sound =>
    refine grantsWithinTerms_move (i := i) ?_ (fun j hj => ?_) h
    · rw [State.life_requeue, State.life_setLife_self, Life.legal_waiting]
      exact sound (Life.legal_waiting.mp (e ▸ hl i))
    · rw [State.life_requeue, State.life_setLife, if_neg hj]
  | create _ _ hu c => exact grantsWithinTerms_move (by rw [c.life]; exact Life.legal_waiting.mpr hu) c.otherLives h
  | spend hu e =>
    exact grantsWithinTerms_move (by rw [e.life]; exact Life.legal_spent.mpr ((hl _).1 _ (Life.terms?_of_liveTerms? hu))) e.otherLives h
  | @retire _ i _ _ _ hu e =>
    exact grantsWithinTerms_move (by rw [e.life]; exact Life.legal_retiring.mpr (Life.legal_granted.mp (hu ▸ hl i)).1) e.otherLives h
  | @admits _ i _ _ _ hu _ _ hn e =>
    have hs := Life.legal_waiting.mp (hu ▸ hl i)
    exact grantsWithinTerms_move (by rw [e.life]; exact Life.legal_granted.mpr ⟨hs, hn hs⟩) e.otherLives h
  | seize _ _ _ _ => exact h
  | trip e =>
    intro i
    have hi := hl i
    show (t.life i).Legal
    rw [e.lives i]
    generalize s.life i = l at hi
    cases l with
    | free => exact Life.legal_free
    | waiting u r => exact Life.legal_waiting.mpr (Life.legal_waiting.mp hi)
    | granted u g => exact Life.legal_spent.mpr (Life.legal_granted.mp hi).1
    | retiring u a c n => exact Life.legal_spent.mpr (Life.legal_retiring.mp hi)
    | spent u c f => exact hi
  | @reclaim i u _ _ _ =>
    refine grantsWithinTerms_move (i := i) ?_ (fun j hj => ?_) h
    · rw [State.life_reclaimRecord, if_pos rfl]
      exact Life.legal_free
    · rw [State.life_reclaimRecord, if_neg hj]
  | vacate hf _ _ _ _ _ _ =>
    intro i
    rw [hf i]
    exact Life.legal_free
  | stop _ => exact h

/-! ### The edit window -/

/-- WAITING or GRANTED: the states in which an open window can stand on a record (R177). -/
def Life.editable (l : Life) : Bool :=
  l.isWaiting || l.isGranted

theorem Life.editable_iff (l : Life) : l.editable = true ↔ l.isWaiting = true ∨ l.isGranted = true := by simp [Life.editable]

/-- A handle stands on a record whose index it holds (R3). -/
theorem State.covers_iff (s : State) (v : Nat) :
    s.Covers v ↔ ∃ i, v = (s.record i).generation.val * 64 + i.val ∧ (s.life i).editable = true := by
  simp only [State.Covers, State.resolve_iff, Life.editable_iff]

theorem mod_of_handle {v g : Nat} {i : RecIdx} (h : v = g * 64 + i.val) : v % 64 = i.val := by
  have := i.isLt
  omega

/-- A handle stays on its record when that record keeps its generation and stays WAITING or GRANTED. -/
theorem State.Covers.move {v : Nat} (h : s.Covers v) (hg : ∀ j : RecIdx, v % 64 = j.val → (t.record j).generation = (s.record j).generation)
    (hl : ∀ j : RecIdx, v % 64 = j.val → (s.life j).editable = true → (t.life j).editable = true) : t.Covers v := by
  obtain ⟨j, e, hj⟩ := (State.covers_iff ..).mp h
  have hm := mod_of_handle e
  exact (State.covers_iff ..).mpr ⟨j, by rw [hg j hm]; exact e, hl j hm hj⟩

/-- A record changes and overtakes a window on it: every other window that is not STALE stays on its record. -/
theorem editWindowExact_overtaken {i : RecIdx}
    (hw : t.pool.edit = s.pool.edit.map fun w => { w with stale := w.stale || decide (w.handle % 64 = i.val) })
    (ho : ∀ j, j ≠ i → (t.record j).generation = (s.record j).generation ∧ t.life j = s.life j) (h : s.EditWindowExact) :
    t.EditWindowExact := by
  intro w e hs
  rw [hw] at e
  obtain ⟨v, hv, rfl⟩ := Option.map_eq_some_iff.mp e
  simp only [Bool.or_eq_false_iff, decide_eq_false_iff_not] at hs
  obtain ⟨hs, hi⟩ := hs
  have hne : ∀ j : RecIdx, v.handle % 64 = j.val → j ≠ i := fun j hj e => hi (by rw [hj, e])
  exact State.Covers.move (h v hv hs) (fun j hj => (ho j (hne j hj)).1) fun j hj he => by rwa [(ho j (hne j hj)).2]

/-- No window comes to be, and every record that is WAITING or GRANTED stays so under its generation. -/
theorem editWindowExact_kept
    (hw : ∀ w, t.pool.edit = some w → w.stale = false → s.Covers w.handle ∨ ∃ v, s.pool.edit = some v ∧ v.stale = false ∧ v.handle = w.handle)
    (hg : ∀ j, (t.record j).generation = (s.record j).generation)
    (hl : ∀ j, (s.life j).editable = true → (t.life j).editable = true) (h : s.EditWindowExact) : t.EditWindowExact := by
  intro w e hs
  have hc : s.Covers w.handle := by
    rcases hw w e hs with hc | ⟨v, hv, hs', e'⟩
    · exact hc
    · exact e' ▸ h v hv hs'
  exact hc.move (fun j _ => hg j) fun j _ => hl j

theorem Life.Amends.editable {l k : Life} (h : l.Amends k) : k.editable = l.editable := by
  rw [Life.editable, Life.editable, h.isWaiting, h.isGranted]

/-- A window that an operation only marks STALE was there before. -/
theorem window_of_map {f : EditWindow → Bool} (hw : t.pool.edit = s.pool.edit.map fun w => { w with stale := w.stale || f w })
    (w : EditWindow) (e : t.pool.edit = some w) (hs : w.stale = false) :
    ∃ v, s.pool.edit = some v ∧ v.stale = false ∧ f v = false ∧ v.handle = w.handle := by
  rw [hw] at e
  obtain ⟨v, hv, rfl⟩ := Option.map_eq_some_iff.mp e
  obtain ⟨hs, hf⟩ := Bool.or_eq_false_iff.mp hs
  exact ⟨v, hv, hs, hf, rfl⟩

theorem State.edit_reclaimRecord (s : State) (i : RecIdx) (b : BayIdx) :
    (s.reclaimRecord i b).pool.edit = s.pool.edit.map fun w => { w with stale := w.stale || decide (w.handle % 64 = i.val) } := by
  unfold State.reclaimRecord
  exact State.edit_markStale _ _

theorem Move.editWindowExact (m : Move X s t) (h : s.EditWindowExact) : t.EditWindowExact := by
  cases m with
  | amend a _ => exact editWindowExact_kept a.window a.generation (fun j hj => by rwa [(a.lives j).editable]) h
  | @requeue i v u r q e _ _ =>
    have k := (quiet_setLife s i (.waiting u q) (by simp [e])).trans (quiet_requeue _ i u.cls)
    refine editWindowExact_kept (fun w ew hs => .inr ⟨w, ?_, hs, rfl⟩) k.generation (fun j hj => ?_) h
    · obtain ⟨_, _, _, _, _, eq⟩ := (s.setLife i (.waiting u q)).requeue_eq i u.cls
      rw [eq] at ew
      exact ew
    · rw [State.life_requeue, State.life_setLife]
      split
      · rfl
      · exact hj
  | @create _ i rest u _ _ _ c =>
    refine editWindowExact_kept (fun w ew hs => .inr ⟨w, ?_, hs, rfl⟩) c.generations (fun j hj => ?_) h
    · rw [c.frame] at ew
      exact ew
    · by_cases hji : j = i
      · rw [hji, c.life]
        rfl
      · rwa [c.otherLives j hji]
  | spend _ e => exact editWindowExact_overtaken e.window (fun j hj => ⟨e.generations j, e.otherLives j hj⟩) h
  | retire _ e => exact editWindowExact_overtaken e.window (fun j hj => ⟨e.generations j, e.otherLives j hj⟩) h
  | admits _ _ _ _ e => exact editWindowExact_overtaken e.window (fun j hj => ⟨e.generations j, e.otherLives j hj⟩) h
  | seize _ _ _ _ => exact h
  | trip e =>
    intro w ew hs
    obtain ⟨v, hv, hs', hf, eq⟩ := window_of_map e.window w ew hs
    rw [← eq]
    refine State.Covers.move (h v hv hs') (fun j _ => e.generations j) fun j hj he => ?_
    have hload : (s.life j).holdsLoad = false := by
      have := List.any_eq_false.mp hf j (List.mem_finRange j)
      simpa [hj] using this
    rw [e.lives j]
    cases hl : s.life j <;> simp_all [Life.editable, Life.isWaiting, Life.isGranted, Life.holdsLoad]
  | @reclaim i u _ _ _ =>
    refine editWindowExact_overtaken (s.edit_reclaimRecord i u.bay) (fun j hj => ?_) h
    rw [State.life, State.record_reclaimRecord, if_neg hj]
    exact ⟨rfl, rfl⟩
  | vacate _ _ hw _ _ _ _ =>
    intro w ew
    rw [hw] at ew
    cases ew
  | stop _ => exact h

end Sys2Proof.Machine

open Sys2Proof Sys2Proof.Machine

/-- Settles O60: every move keeps each record within R24 and R25, and overtakes the window of each record that leaves WAITING and GRANTED. -/
theorem grantsStayWithinTerms : Obligations.GrantsStayWithinTerms :=
  ⟨fun _ _ h e => step_keeps (fun _ _ m => m.grantsWithinTerms)
      (bayBoundary_keeps (fun _ _ m => m.grantsWithinTerms) fun _ _ _ h => h) (fun _ _ h => h) e h,
    fun _ _ h e => step_keeps (fun _ _ m => m.editWindowExact)
      (bayBoundary_keeps (fun _ _ m => m.editWindowExact) fun _ _ _ h => h) (fun _ _ h => h) e h⟩

end

section
/-!
Every step keeps each bay's entry on exactly its live record, its outputs as that record's state calls for, and its enable CLOSED only where R75
allows it (O54).
-/
set_option Elab.async false

namespace Sys2Proof.Machine

variable {X : BayIdx → Prop} {s t : State}

/-! ### Entries -/

theorem baysExact_congr (hr : ∀ b, (t.bay b).record = (s.bay b).record)
    (hl : ∀ i, (t.life i).liveTerms?.map Terms.bay = (s.life i).liveTerms?.map Terms.bay) (h : s.BaysExact) : t.BaysExact := fun b i => by
  rw [hr, hl]
  exact h b i

/-- The record moves from one state to another in which its bay names it. -/
theorem baysExact_move {i : RecIdx} (hr : ∀ b, (t.bay b).record = (s.bay b).record)
    (hi : (t.life i).liveTerms?.map Terms.bay = (s.life i).liveTerms?.map Terms.bay) (ho : ∀ j, j ≠ i → t.life j = s.life j) :
    s.BaysExact → t.BaysExact :=
  baysExact_congr hr fun j => by
    by_cases hj : j = i
    · subst hj
      exact hi
    · rw [ho j hj]

/-- The entry of a live record's bay names it. -/
theorem State.BaysExact.record {i : RecIdx} {u : Terms} (h : s.BaysExact) (hu : (s.life i).liveTerms? = some u) :
    (s.bay u.bay).record = some i := (h u.bay i).mpr (by rw [hu]; rfl)

/-- The record that an entry names is live and of that bay. -/
theorem State.BaysExact.live {i : RecIdx} {b : BayIdx} (h : s.BaysExact) (hr : (s.bay b).record = some i) :
    ∃ u, (s.life i).liveTerms? = some u ∧ u.bay = b := by
  have := (h b i).mp hr
  simpa [Option.map_eq_some_iff] using this

/-- A bay does not name a record of another bay. -/
theorem State.BaysExact.ne {i j : RecIdx} {u : Terms} {b : BayIdx} (h : s.BaysExact) (hu : (s.life i).liveTerms? = some u)
    (hb : b ≠ u.bay) (hr : (s.bay b).record = some j) : j ≠ i := by
  rintro rfl
  obtain ⟨v, hv, e⟩ := h.live hr
  rw [hu] at hv
  cases hv
  exact hb e.symm

/-- A new record's bay names it, and no other entry changes (R13). -/
theorem baysExact_create {i : RecIdx} {b : BayIdx} (hs : (s.life i).liveTerms? = none) (hb : (s.bay b).record = none)
    (ht : (t.life i).liveTerms?.map Terms.bay = some b) (ho : ∀ j, j ≠ i → t.life j = s.life j) (he : (t.bay b).record = some i)
    (hr : ∀ c, c ≠ b → (t.bay c).record = (s.bay c).record) (h : s.BaysExact) : t.BaysExact := by
  intro c j
  by_cases hj : j = i
  · subst hj
    rw [ht]
    by_cases hc : c = b
    · simp [hc, he]
    · have : (s.bay c).record ≠ some j := fun e => by
        obtain ⟨v, hv, -⟩ := h.live e
        rw [hs] at hv
        cases hv
      simp [hr c hc, this, Ne.symm hc]
  · rw [ho j hj, ← h c j]
    by_cases hc : c = b
    · simp [hc, he, hb, Ne.symm hj]
    · rw [hr c hc]

/-- A record whose life ends leaves its bay's entry, and no other entry changes (R19). -/
theorem baysExact_leave {i : RecIdx} {u : Terms} (hs : (s.life i).liveTerms? = some u) (ht : (t.life i).liveTerms? = none)
    (ho : ∀ j, j ≠ i → t.life j = s.life j) (he : (t.bay u.bay).record = none)
    (hr : ∀ c, c ≠ u.bay → (t.bay c).record = (s.bay c).record) (h : s.BaysExact) : t.BaysExact := by
  intro c j
  by_cases hj : j = i
  · subst hj
    rw [ht]
    by_cases hc : c = u.bay
    · simp [hc, he]
    · have : (s.bay c).record ≠ some j := fun e => h.ne hs hc e rfl
      simp [hr c hc, this]
  · rw [ho j hj, ← h c j]
    by_cases hc : c = u.bay
    · simp [hc, he, h.record hs, Ne.symm hj]
    · rw [hr c hc]

theorem State.bay_reclaimRecord (s : State) (i : RecIdx) (b c : BayIdx) :
    (s.reclaimRecord i b).bay c =
      if c = b then { s.bay b with lastSpent := if (s.bay b).lastSpent = some (s.handle i) then none else (s.bay b).lastSpent }
      else s.bay c := by
  unfold State.reclaimRecord
  dsimp only
  rw [State.bay_congr (State.bays_markStale ..)]
  show (s.modBay b fun y => if y.lastSpent = some (s.handle i) then { y with lastSpent := none } else y).bay c = _
  rw [State.bay_modBay]
  split
  · split <;> simp_all
  · rfl

theorem EntersTrip.life_idle (e : EntersTrip s t) (j : RecIdx) : (t.life j).holdsLoad = false ∧ (t.life j).isGranted = false := by
  rw [e.lives j]
  cases s.life j <;> exact ⟨rfl, rfl⟩

theorem EntersTrip.baysExact (e : EntersTrip s t) (h : s.BaysExact) : t.BaysExact := by
  intro b j
  by_cases hb : ∃ i u, (s.life i).terms? = some u ∧ (s.life i).holdsLoad = true ∧ u.bay = b
  · obtain ⟨i, u, hu, hl, rfl⟩ := hb
    have hlive : (s.life i).liveTerms? = some u := by cases hs : s.life i <;> simp_all [Life.liveTerms?, Life.terms?, Life.holdsLoad]
    have hj := h u.bay j
    rw [h.record hlive, Option.some_inj] at hj
    rw [(e.entries i u hu hl).1, e.lives j]
    simp only [reduceCtorEq, false_iff]
    intro ht
    have hij : i = j := hj.mpr (by
      generalize s.life j = l at ht ⊢
      cases l <;> first | exact ht | cases ht)
    subst hij
    generalize s.life i = l at ht hl
    cases l <;> first | cases ht | cases hl
  · push Not at hb
    rw [(e.otherEntries b hb).1, h b j, e.lives j]
    have hj := hb j
    generalize s.life j = l at hj ⊢
    cases l with
    | granted u g => simp [Life.liveTerms?, hj u rfl rfl]
    | retiring u a c n => simp [Life.liveTerms?, hj u rfl rfl]
    | _ => rfl

theorem Move.baysExact (m : Move X s t) (hf : s.FreeListExact) (h : s.BaysExact) : t.BaysExact := by
  cases m with
  | amend a _ => exact baysExact_congr (fun b => (a.bays b).record) (fun i => (a.lives i).liveBay) h
  | @requeue i v u r q e hb _ =>
    obtain ⟨_, _, _, _, _, eq⟩ := (s.setLife i (.waiting u q)).requeue_eq i u.cls
    refine baysExact_move (i := i) (fun b => by rw [eq]; rfl) ?_ (fun j hj => ?_) h
    · rw [State.life_requeue, State.life_setLife_self, e]
      exact congrArg some hb
    · rw [State.life_requeue, State.life_setLife, if_neg hj]
  | @create _ i rest u hfl hb _ c =>
    have hfree : s.life i = .free := (hf.2 i).mp (by rw [hfl]; simp)
    exact baysExact_create (by rw [hfree]; rfl) hb (by rw [c.life]; rfl) c.otherLives (by rw [c.entry])
      (fun b hne => by rw [c.otherBays b hne]) h
  | spend hu e =>
    exact baysExact_leave hu (by rw [e.life]; rfl) e.otherLives e.entry.1 (fun b hne => by rw [e.otherBays b hne]) h
  | @retire _ i u _ _ hu e =>
    refine baysExact_move (fun b => ?_) (by rw [e.life, hu]; rfl) e.otherLives h
    by_cases hb : b = u.bay
    · rw [hb, e.bay]
    · rw [e.otherBays b hb]
  | @admits _ i u _ _ hu _ _ _ e =>
    refine baysExact_move (fun b => ?_) (by rw [e.life, hu]; rfl) e.otherLives h
    by_cases hb : b = u.bay
    · rw [hb, e.bay]
    · rw [e.otherBays b hb]
  | @seize b y _ hr _ _ =>
    refine baysExact_congr (s := s) (fun c => ?_) (fun _ => rfl) h
    rw [State.bay_setBay]
    split
    · subst_vars
      exact hr
    · rfl
  | trip e => exact e.baysExact h
  | @reclaim i u _ _ hl =>
    refine baysExact_move (i := i) (fun b => ?_) ?_ (fun j hj => ?_) h
    · rw [State.bay_reclaimRecord]
      split
      · subst_vars
        rfl
      · rfl
    · rw [State.life_reclaimRecord, if_pos rfl, hl]
      rfl
    · rw [State.life_reclaimRecord, if_neg hj]
  | vacate hl _ _ _ _ hb _ =>
    intro b i
    rw [hl i, (hb b).1]
    simp [Life.liveTerms?]
  | stop _ => exact h

/-! ### Outputs -/

/-- What R74, R80 and R83 ask of a bay under the life its entry names; `ahead` lets the active grant run ahead of the limit. -/
structure Bay.Drives (ahead : Prop) (y : Bay) (l : Option Life) : Prop where
  closed : y.enable = .closed ↔ l.map Life.holdsLoad = some true
  opened : y.enable = .opened → y.limit = 0 ∧ y.decreaseGrace = none
  active : ¬ ahead → ∀ t g, l = some (.granted t g) → y.limit ≤ g.active
  other : l.map Life.isGranted ≠ some true → y.limit = 0

/-- `OutputsExact`, but for the limits of the bays of `X` while their record's active grant runs ahead. -/
def State.Drive (X : BayIdx → Prop) (s : State) : Prop :=
  ∀ b, (s.bay b).Drives (X b) (s.bayLife b)

theorem State.outputsExact_iff (s : State) : s.OutputsExact ↔ s.Drive fun _ => False :=
  forall_congr' fun _ => ⟨fun ⟨h1, h2, h3, h4⟩ => ⟨h1, h2, fun _ => h3, h4⟩, fun h => ⟨h.closed, h.opened, h.active not_false, h.other⟩⟩

theorem State.Drive.mono {Y : BayIdx → Prop} (h : s.Drive X) (hXY : ∀ b, X b → Y b) : s.Drive Y := fun b =>
  ⟨(h b).closed, (h b).opened, fun hy => (h b).active fun hx => hy (hXY b hx), (h b).other⟩

/-- A bay with an OPEN enable and limit 0 under no record in use of load. -/
theorem Bay.drives_open {ahead : Prop} {y : Bay} {l : Option Life} (he : y.enable = .opened) (hl : y.limit = 0)
    (hg : y.decreaseGrace = none) (h : ∀ k, l = some k → k.holdsLoad = false) : y.Drives ahead l where
  closed := by
    cases l with
    | none => simp [he]
    | some k => simp [he, h k rfl]
  opened _ := ⟨hl, hg⟩
  active _ _ _ _ := by rw [hl]; exact Nat.zero_le _
  other _ := hl

/-- A bay and the life its entry names that stand. -/
theorem drives_same {b : BayIdx} (hb : t.bay b = s.bay b) (hl : ∀ j, (s.bay b).record = some j → t.life j = s.life j)
    (h : (s.bay b).Drives (X b) (s.bayLife b)) : (t.bay b).Drives (X b) (t.bayLife b) := by
  have e : t.bayLife b = s.bayLife b := by
    rw [State.bayLife, State.bayLife, hb]
    cases hr : (s.bay b).record with
    | none => rfl
    | some j => exact congrArg some (hl j hr)
  rwa [hb, e]

/-- Every bay's entry, enable and limit stand, and every record holds load, is GRANTED and has its active grant as before. -/
theorem drive_congr (hr : ∀ b, (t.bay b).record = (s.bay b).record ∧ (t.bay b).enable = (s.bay b).enable)
    (hh : ∀ b, (s.bay b).Holds (t.bay b)) (hl : ∀ i, (t.life i).holdsLoad = (s.life i).holdsLoad)
    (hg : ∀ i, (t.life i).isGranted = (s.life i).isGranted)
    (ha : ∀ i u g v k, s.life i = .granted u g → t.life i = .granted v k → ¬ X u.bay → k.active = g.active) (hB : s.BaysExact)
    (h : s.Drive X) : t.Drive X := by
  intro b
  obtain ⟨h1, h2, h3, h4⟩ := h b
  obtain ⟨hr, he⟩ := hr b
  have hm : (t.bayLife b).map Life.holdsLoad = (s.bayLife b).map Life.holdsLoad ∧
      (t.bayLife b).map Life.isGranted = (s.bayLife b).map Life.isGranted := by
    rw [State.bayLife, State.bayLife, hr]
    cases (s.bay b).record <;> simp [hl, hg]
  refine ⟨by rw [he, hm.1, h1], fun ho => ?_, fun hx v k e => ?_, fun ho => ?_⟩
  · obtain ⟨hz, hn⟩ := h2 (he ▸ ho)
    refine ⟨(hh b).limit.trans hz, ?_⟩
    rcases (hh b).grace with e | e
    · exact e.trans hn
    · exact e
  · rw [State.bayLife, hr, Option.map_eq_some_iff] at e
    obtain ⟨i, hi, e⟩ := e
    obtain ⟨w, hw, hwb⟩ := hB.live hi
    cases hs : s.life i with
    | granted u g =>
      have hub : u.bay = b := by rw [hs] at hw; cases hw; exact hwb
      rw [(hh b).limit, ha i _ _ _ _ hs e (hub ▸ hx)]
      exact h3 hx u g (by rw [State.bayLife, hi, ← hs]; rfl)
    | _ =>
      have := hg i
      rw [e, hs] at this
      cases this
  · rw [(hh b).limit]
    exact h4 (hm.2 ▸ ho)

/-- The move of one live record leaves the other bays' outputs. -/
theorem drive_move {i : RecIdx} {u : Terms} (hu : (s.life i).liveTerms? = some u) (ho : ∀ j, j ≠ i → t.life j = s.life j)
    (hb : ∀ b, b ≠ u.bay → t.bay b = s.bay b) (hB : s.BaysExact) (h : s.Drive X) (hi : (t.bay u.bay).Drives (X u.bay) (t.bayLife u.bay)) :
    t.Drive X := fun b => by
  by_cases hbu : b = u.bay
  · subst hbu
    exact hi
  · exact drives_same (hb b hbu) (fun j hj => ho j (hB.ne hu hbu hj)) (h b)

theorem bayLife_eq {b : BayIdx} {i : RecIdx} (h : (s.bay b).record = some i) : s.bayLife b = some (s.life i) := by
  rw [State.bayLife, h]
  rfl

theorem Enable.opened_of_ne {e : Enable} (h : e ≠ .closed) : e = .opened := by
  cases e
  · rfl
  · exact absurd rfl h

/-- The enable of a bay whose entry names no GRANTED or RETIRING record is OPEN. -/
theorem State.Drive.opened (h : s.Drive X) {b : BayIdx} (hl : (s.bayLife b).map Life.holdsLoad ≠ some true) : (s.bay b).enable = .opened :=
  Enable.opened_of_ne fun e => hl ((h b).closed.mp e)

theorem EntersSpent.drive {i : RecIdx} {u : Terms} {c : EndCause} {f : Bool} (e : EntersSpent s t i u c f)
    (hu : (s.life i).liveTerms? = some u) (hB : s.BaysExact) (h : s.Drive X) : t.Drive X := by
  refine drive_move hu e.otherLives e.otherBays hB h ?_
  obtain ⟨hr, -, -, ho⟩ := e.entry
  have hz : (t.bay u.bay).limit = 0 ∧ (t.bay u.bay).decreaseGrace = none := by
    cases he : (s.bay u.bay).enable with
    | closed => exact ⟨(e.opening he).1, (e.opening he).2.2.1⟩
    | opened =>
      rw [e.alreadyOpen he]
      exact (h u.bay).opened he
  exact Bay.drives_open ho hz.1 hz.2 (by simp [State.bayLife, hr])

theorem EntersRetiring.drive {i : RecIdx} {u : Terms} {g : Grant} {c : EndCause} (e : EntersRetiring s t i u g c)
    (hu : s.life i = .granted u g) (hB : s.BaysExact) (h : s.Drive X) : t.Drive X := by
  have hl : (s.life i).liveTerms? = some u := by rw [hu]; rfl
  refine drive_move hl e.otherLives e.otherBays hB h ?_
  have hrec := hB.record hl
  have hc : (s.bay u.bay).enable = .closed := (h u.bay).closed.mpr (by rw [bayLife_eq hrec, hu]; rfl)
  have hr : (t.bay u.bay).record = some i := by rw [e.bay]; exact hrec
  have hen : (t.bay u.bay).enable = .closed := by rw [e.bay]; exact hc
  rw [bayLife_eq hr, e.life]
  refine ⟨by simp [hen, Life.holdsLoad], fun ho => ?_, fun _ _ _ hg => (nomatch hg), fun _ => e.limit.1⟩
  rw [hen] at ho
  cases ho

theorem Admits.drive {i : RecIdx} {u : Terms} {r : WaitReason} {n : Nat} (e : Admits s t i u n) (hu : s.life i = .waiting u r)
    (hB : s.BaysExact) (h : s.Drive X) : t.Drive X := by
  have hl : (s.life i).liveTerms? = some u := by rw [hu]; rfl
  refine drive_move hl e.otherLives e.otherBays hB h ?_
  have hrec := hB.record hl
  have ho : (s.bay u.bay).enable = .opened := h.opened (by rw [bayLife_eq hrec, hu]; simp [Life.holdsLoad])
  have hz := ((h u.bay).opened ho).1
  have hr : (t.bay u.bay).record = some i := by rw [e.bay]; exact hrec
  have hlim : (t.bay u.bay).limit = 0 := by rw [e.bay]; exact hz
  have hen : (t.bay u.bay).enable = .closed := by rw [e.bay]
  rw [bayLife_eq hr, e.life]
  refine ⟨by simp [hen, Life.holdsLoad], fun ho => ?_, fun _ _ _ _ => by rw [hlim]; exact Nat.zero_le _, fun _ => hlim⟩
  rw [hen] at ho
  cases ho

theorem Creates.drive {i : RecIdx} {rest : List RecIdx} {u : Terms} (c : Creates s t i rest u.bay u) (hf : s.life i = .free)
    (hb : (s.bay u.bay).record = none) (hB : s.BaysExact) (h : s.Drive X) : t.Drive X := fun b => by
  by_cases hbu : b = u.bay
  · subst hbu
    have ho : (s.bay u.bay).enable = .opened := h.opened (by simp [State.bayLife, hb])
    obtain ⟨hz, hn⟩ := (h u.bay).opened ho
    have hr : (t.bay u.bay).record = some i := by rw [c.entry]
    rw [bayLife_eq hr, c.life]
    exact Bay.drives_open (by rw [c.entry]; exact ho) (by rw [c.entry]; exact hz) (by rw [c.entry]; exact hn)
      fun k e => by cases e; rfl
  · refine drives_same (c.otherBays b hbu) (fun j hj => c.otherLives j ?_) (h b)
    rintro rfl
    obtain ⟨v, hv, -⟩ := hB.live hj
    rw [hf] at hv
    cases hv

theorem EntersTrip.drive (e : EntersTrip s t) (h : s.Drive X) : t.Drive X := fun b => by
  obtain ⟨ho, hc, hop⟩ := e.outputs b
  have hz : (t.bay b).limit = 0 ∧ (t.bay b).decreaseGrace = none := by
    cases he : (s.bay b).enable with
    | closed => exact ⟨(hc he).1, (hc he).2.2.1⟩
    | opened =>
      obtain ⟨k1, -, k2, -⟩ := hop he
      rw [k1, k2]
      exact (h b).opened he
  refine Bay.drives_open ho hz.1 hz.2 fun k hk => ?_
  obtain ⟨j, -, rfl⟩ := Option.map_eq_some_iff.mp hk
  exact (e.life_idle j).1

theorem Move.drive (m : Move X s t) (hf : s.FreeListExact) (hB : s.BaysExact) (h : s.Drive X) : t.Drive X := by
  cases m with
  | amend a f =>
    exact drive_congr (fun b => ⟨(a.bays b).record, (a.bays b).enable⟩) f.bays (fun i => (a.lives i).holdsLoad)
      (fun i => (a.lives i).isGranted) f.active hB h
  | @requeue i v u r q e hb _ =>
    obtain ⟨_, _, _, _, _, eq⟩ := (s.setLife i (.waiting u q)).requeue_eq i u.cls
    have hbay : ∀ b, ((s.setLife i (.waiting u q)).requeue i u.cls).bay b = s.bay b := fun b => by rw [eq]; rfl
    refine drive_congr (fun b => by rw [hbay]; exact ⟨rfl, rfl⟩) (fun b => by rw [hbay]; exact .refl _) (fun j => ?_) (fun j => ?_)
      (fun j w g w' k e1 e2 _ => ?_) hB h
    · rw [State.life_requeue, State.life_setLife]
      split
      · subst_vars
        rw [e]
        rfl
      · rfl
    · rw [State.life_requeue, State.life_setLife]
      split
      · subst_vars
        rw [e]
        rfl
      · rfl
    · rw [State.life_requeue, State.life_setLife] at e2
      split at e2
      · cases e2
      · rw [e1] at e2
        cases e2
        rfl
  | @create _ i rest u hfl hb _ c => exact c.drive ((hf.2 i).mp (by rw [hfl]; simp)) hb hB h
  | spend hu e => exact e.drive hu hB h
  | retire hu e => exact e.drive hu hB h
  | admits hu _ _ _ e => exact e.drive hu hB h
  | @seize b y _ hr he hh =>
    have hy : ∀ c, (s.setBay b y).bay c = if c = b then y else s.bay c := fun c => State.bay_setBay ..
    refine drive_congr (s := s) (fun c => ?_) (fun c => ?_) (fun _ => rfl) (fun _ => rfl) (fun i u g v k e1 e2 _ => ?_) hB h
    · rw [hy]
      split
      · subst_vars
        exact ⟨hr, he⟩
      · exact ⟨rfl, rfl⟩
    · rw [hy]
      split
      · subst_vars
        exact hh
      · exact .refl _
    · have e2 : s.life i = .granted v k := e2
      rw [e1] at e2
      cases e2
      rfl
  | trip e => exact e.drive h
  | @reclaim i u _ _ hl =>
    have hlife := fun j => s.life_reclaimRecord i j u.bay
    refine drive_congr (fun b => ?_) (fun b => ?_) (fun j => ?_) (fun j => ?_) (fun j w g v k e1 e2 _ => ?_) hB h
    · rw [State.bay_reclaimRecord]
      split
      · subst_vars
        exact ⟨rfl, rfl⟩
      · exact ⟨rfl, rfl⟩
    · rw [State.bay_reclaimRecord]
      split
      · subst_vars
        exact ⟨rfl, .inl rfl⟩
      · exact .refl _
    · rw [hlife]
      split
      · subst_vars
        rw [hl]
        rfl
      · rfl
    · rw [hlife]
      split
      · subst_vars
        rw [hl]
        rfl
      · rfl
    · rw [hlife] at e2
      split at e2
      · cases e2
      · rw [e1] at e2
        cases e2
        rfl
  | vacate _ _ _ _ _ hb _ =>
    intro b
    obtain ⟨hr, ho, hz, hn⟩ := hb b
    exact Bay.drives_open ho hz hn (by simp [State.bayLife, hr])
  | stop _ => exact h

/-! ### Closed enables -/

/-- Every closed enable was closed, its bay stays clear, and the part stays at work. -/
theorem closedBaysClear_congr (ho : t.alloc.opState = s.alloc.opState ∨ t.alloc.opState = .running ∨ t.alloc.opState = .hold)
    (hb : ∀ b, (t.bay b).enable = .closed → (s.bay b).enable = .closed ∧
      ((s.bay b).blockCause = .none ∧ (s.bay b).calState = .idle → (t.bay b).blockCause = .none ∧ (t.bay b).calState = .idle))
    (h : s.ClosedBaysClear) : t.ClosedBaysClear := by
  intro b hc
  obtain ⟨hs, hk⟩ := hb b hc
  obtain ⟨hw, hclear⟩ := h b hs
  refine ⟨?_, hk hclear⟩
  rcases ho with e | e
  · rw [e]
    exact hw
  · exact e

theorem closedBaysClear_opened (h : ∀ b, (t.bay b).enable = .opened) : t.ClosedBaysClear := fun b hc => by
  rw [h b] at hc
  cases hc

theorem Move.closedBaysClear (m : Move X s t) (hD : s.Drive X) (h : s.ClosedBaysClear) : t.ClosedBaysClear := by
  cases m with
  | amend a _ => exact closedBaysClear_congr a.opState (fun b hc => ⟨(a.bays b).enable ▸ hc, (a.bays b).clear⟩) h
  | @requeue i v u r q e hb _ =>
    obtain ⟨_, _, _, _, _, eq⟩ := (s.setLife i (.waiting u q)).requeue_eq i u.cls
    rw [eq]
    exact closedBaysClear_congr (.inl rfl) (fun b hc => ⟨hc, id⟩) h
  | @create _ i rest u _ _ _ c =>
    refine closedBaysClear_congr (.inl (by rw [c.frame])) (fun b hc => ?_) h
    by_cases hb : b = u.bay
    · subst hb
      rw [c.entry] at hc ⊢
      exact ⟨hc, id⟩
    · rw [c.otherBays b hb] at hc ⊢
      exact ⟨hc, id⟩
  | @spend _ i u _ _ _ e =>
    refine closedBaysClear_congr (.inl (by rw [e.frame])) (fun b hc => ?_) h
    by_cases hb : b = u.bay
    · rw [hb, e.entry.2.2.2] at hc
      cases hc
    · rw [e.otherBays b hb] at hc ⊢
      exact ⟨hc, id⟩
  | @retire _ i u _ _ _ e =>
    refine closedBaysClear_congr (.inl (by rw [e.frame])) (fun b hc => ?_) h
    by_cases hb : b = u.bay
    · subst hb
      rw [e.bay] at hc ⊢
      exact ⟨hc, id⟩
    · rw [e.otherBays b hb] at hc ⊢
      exact ⟨hc, id⟩
  | @admits _ i u _ _ _ hadm hrun _ e =>
    intro b hc
    by_cases hb : b = u.bay
    · subst hb
      obtain ⟨h1, h2, -, -⟩ := hadm
      rw [e.bay]
      exact ⟨.inl (by rw [e.frame]; exact hrun), h1, h2⟩
    · rw [e.otherBays b hb] at hc ⊢
      rw [e.frame]
      exact h b hc
  | @seize b y hg _ he _ =>
    have ho : (s.bay b).enable = .opened := hg.elim id hD.opened
    refine closedBaysClear_congr (s := s) (.inl rfl) (fun c hc => ?_) h
    rw [State.bay_setBay] at hc ⊢
    split at hc
    · rw [he, ho] at hc
      cases hc
    · rename_i hne
      rw [if_neg hne]
      exact ⟨hc, id⟩
  | trip e => exact closedBaysClear_opened fun b => (e.outputs b).1
  | @reclaim i u _ _ _ =>
    refine closedBaysClear_congr (.inl (by rw [State.alloc_reclaimRecord])) (fun b hc => ?_) h
    rw [State.bay_reclaimRecord] at hc ⊢
    split at hc
    · subst_vars
      exact ⟨hc, by simp⟩
    · rename_i hne
      rw [if_neg hne]
      exact ⟨hc, id⟩
  | vacate _ _ _ _ _ hb _ => exact closedBaysClear_opened fun b => (hb b).2.1
  | stop hl =>
    refine closedBaysClear_opened fun b => hD.opened ?_
    rw [State.bayLife]
    cases (s.bay b).record <;> simp [hl]

/-! ### The three together -/

/-- The entries, the outputs but for the limits of `X`, and the closed enables, with the free list that creation needs. -/
structure State.BaysKept (X : BayIdx → Prop) (s : State) : Prop where
  freeList : s.FreeListExact
  entries : s.BaysExact
  outputs : s.Drive X
  clear : s.ClosedBaysClear

theorem Move.baysKept (m : Move X s t) (h : s.BaysKept X) : t.BaysKept X :=
  ⟨m.freeListExact h.freeList, m.baysExact h.freeList h.entries, m.drive h.freeList h.entries h.outputs, m.closedBaysClear h.outputs h.clear⟩

/-- The limit that a boundary gives a bay is at most the active grant, and 0 without a GRANTED record (R71, R78). -/
theorem Life.limitAt_le (l : Life) (p : Position) :
    (∀ t g, l = .granted t g → l.limitAt p ≤ g.active) ∧ (l.isGranted = false → l.limitAt p = 0) := by
  cases l with
  | granted t g =>
    refine ⟨fun u k e => ?_, fun h => by cases h⟩
    cases e
    simp only [Life.limitAt]
    split
    · split
      · exact min_le_left _ _
      · exact le_refl _
    · exact Nat.zero_le _
  | _ => exact ⟨fun _ _ e => (nomatch e), fun _ => rfl⟩

theorem State.boundaryLimit_zero (s : State) (b : BayIdx) (h : (s.bayLife b).map Life.isGranted ≠ some true) : s.boundaryLimit b = 0 := by
  unfold State.boundaryLimit
  split
  · rename_i l e
    refine (l.limitAt_le _).2 ?_
    simpa [e] using h
  · rfl

theorem Bay.setLimit_frame (y : Bay) (n : Nat) :
    (y.setLimit n).record = y.record ∧ (y.setLimit n).enable = y.enable ∧ (y.setLimit n).blockCause = y.blockCause ∧
      (y.setLimit n).calState = y.calState ∧ (y.setLimit n).strayGrace = y.strayGrace := by
  unfold Bay.setLimit
  split <;> exact ⟨rfl, rfl, rfl, rfl, rfl⟩

/-- The boundary's limit catches up with the active grant that ran ahead of it (R77, R78). -/
theorem drive_setLimit {b : BayIdx} (h : s.Drive (· = b)) :
    (s.modBay b fun y => y.setLimit (s.boundaryLimit b)).Drive fun _ => False := by
  intro c
  have hlife : (s.modBay b fun y => y.setLimit (s.boundaryLimit b)).bayLife c = s.bayLife c := by
    rw [State.bayLife, State.bayLife, State.bay_modBay]
    split
    · rename_i e
      rw [((s.bay b).setLimit_frame _).1, e]
      rfl
    · rfl
  rw [hlife, State.bay_modBay]
  split
  · rename_i e
    subst e
    obtain ⟨h1, h2, -, h4⟩ := h c
    obtain ⟨e1, -, e3⟩ := (s.bay c).setLimit_spec (s.boundaryLimit c)
    obtain ⟨-, f2, -, -, -⟩ := (s.bay c).setLimit_frame (s.boundaryLimit c)
    refine ⟨by rw [f2, h1], fun ho => ?_, fun _ u g hu => ?_, fun ho => by rw [e1, s.boundaryLimit_zero c ho]⟩
    · rw [f2] at ho
      have hg : (s.bayLife c).map Life.isGranted ≠ some true := fun hg => by
        have : (s.bayLife c).map Life.holdsLoad = some true := by
          cases hl : s.bayLife c with
          | none => rw [hl] at hg; cases hg
          | some l => cases l <;> simp_all [Life.isGranted, Life.holdsLoad]
        rw [h1.mpr this] at ho
        cases ho
      rw [e1, e3, s.boundaryLimit_zero c hg]
      simpa [ho] using (h2 ho).2
    · rw [e1, State.boundaryLimit, hu]
      exact (Life.limitAt_le _ _).1 u g rfl
  · rename_i e
    exact ⟨(h c).closed, (h c).opened, fun _ => (h c).active e, (h c).other⟩

theorem baysKept_bayBoundary (s : State) (b : BayIdx) (h : s.BaysKept fun _ => False) : (s.bayBoundary b).BaysKept fun _ => False := by
  obtain ⟨m, hm, e⟩ := bayBoundary_moves (X := (· = b)) s b fun i u g hr hl => by
    obtain ⟨v, hv, hb⟩ := h.entries.live hr
    rw [hl] at hv
    cases hv
    exact hb
  have k : m.BaysKept (· = b) :=
    hm.keeps (fun _ _ => Move.baysKept) ⟨h.freeList, h.entries, h.outputs.mono fun _ hx => hx.elim, h.clear⟩
  have hf := fun c => (m.bay c).setLimit_frame (m.boundaryLimit b)
  rw [e]
  refine ⟨k.freeList, baysExact_congr (s := m) (fun c => ?_) (fun _ => rfl) k.entries, drive_setLimit k.outputs,
    closedBaysClear_congr (s := m) (.inl rfl) (fun c hc => ?_) k.clear⟩
  · rw [State.bay_modBay]
    split
    · subst_vars
      exact (hf c).1
    · rfl
  · rw [State.bay_modBay] at hc ⊢
    split at hc
    · subst_vars
      obtain ⟨-, f2, f3, f4, -⟩ := hf c
      rw [if_pos rfl, f3, f4]
      exact ⟨f2 ▸ hc, id⟩
    · rename_i hne
      rw [if_neg hne]
      exact ⟨hc, id⟩

end Sys2Proof.Machine

open Sys2Proof Sys2Proof.Machine

/-- Settles O54: every move keeps entries, outputs and closed enables, and the bay part of a boundary gives the limit that the active grant it
moved calls for. -/
theorem baysStayExact : Obligations.BaysStayExact := fun s t hf hB hO hC e => by
  have k := step_keeps (P := State.BaysKept fun _ => False) (fun _ _ => Move.baysKept) baysKept_bayBoundary
    (fun _ _ h => ⟨h.freeList, h.entries, h.outputs, h.clear⟩) e ⟨hf, hB, s.outputsExact_iff.mp hO, hC⟩
  exact ⟨k.entries, t.outputsExact_iff.mpr k.outputs, k.clear⟩

end

section
/-!
RESTART block by block (O7), and the two modes of RETIRE (O16).
-/
set_option Elab.async false

namespace Sys2Proof.Machine

/-! ### RESTART -/

theorem Record.freed_generation (r : Record) : r.freed.generation = if r.life = .free then r.generation else r.generation + 1 := by
  unfold Record.freed
  cases h : r.life <;> simp

/-- A bay's entry after RESTART, field by field (R7, R9, R74, R91, R101, R126, R159). -/
theorem Bay.restarted_eq (y : Bay) : y.restarted = { y with
    record := none, lastSpent := none, events := { admitted := false, spent := false, calDone := false, blocked := false },
    answer := none, enable := .opened, limit := 0, stagedDuty := 0, decreaseGrace := none,
    strayGrace := y.strayGrace || y.enable == .closed, closeCount := 0, blockCause := .none, latestSample := 0,
    periodSum := 0, periodCount := 0, sumOwner := none, calState := .idle,
    lastResult := if y.calState = .idle then y.lastResult else .aborted,
    settleLeft := 0, samplesTaken := 0, sampleSum := 0 } := by
  unfold Bay.restarted Bay.openEnable
  cases h : y.enable <;> simp [EventSet.empty, h]

theorem State.load_vacated (u : State) (p : Position) : u.vacated.load p = 0 := by
  simp [State.load, State.vacated, Allocator.restarted, Vector.get_eq_getElem]

theorem State.edit_vacated (u : State) : u.vacated.pool.edit = none := by
  simp only [State.vacated, Pool.restarted]

/-- What RESTART leaves beside the pool, the bays, the loads and the flags (R159). -/
theorem State.vacated_frame (u : State) : u.vacated.ok = { u with
    pool := u.vacated.ok.pool, bays := u.vacated.ok.bays, attention := { u.attention with flags := u.vacated.ok.attention.flags }
    alloc := { u.alloc with
      loads := u.vacated.ok.alloc.loads, waitQueue := [], grantOrder := [], opState := .standby, holdPort := false, reclaiming := false,
      passDue := false }
    timer := { running := false, ms := 0, position := 0, outstanding := [], found := Vector.replicate 16 none }
    sampler := { u.sampler with calRequests := [], confirmRequests := [] }
    reply := some { code := .ok, body := [] } } := by
  simp only [State.ok, State.answer, State.vacated, Allocator.restarted, Timer.stopped, Timer.reset, State.modBays]

theorem exec_restart (s : State) : exec (.restart []) s = .next s.restarted.ok := rfl

theorem State.flags_vacated (u : State) (f : Flag) : u.vacated.attention.flags.get f = .lowered := by
  simp [State.vacated, Vector.get_eq_getElem]

end Sys2Proof.Machine

open Sys2Proof Sys2Proof.Machine

/-- Settles O7: once the parts of the latest boundary are taken, RESTART writes each block once. -/
theorem restartTaken : Obligations.RestartTaken := by
  intro s
  obtain ⟨u, hu⟩ : ∃ u, u = s.finishBoundary := ⟨_, rfl⟩
  refine ⟨u, fun h => hu.trans (finishBoundary_eq s h), hu, u.vacated.ok, ?_, fun i => ?_, ?_, ?_, fun p => ?_, fun b => ?_, fun f => ?_,
    u.vacated_frame⟩
  · rw [exec_restart, State.restarted_eq, hu]
  · rw [State.life_congr (State.pool_ok _), State.record_congr (State.pool_ok _), State.record_vacated, Record.freed_generation]
    exact ⟨u.life_vacated i, rfl⟩
  · rw [State.pool_ok, State.freeList_vacated]
  · rw [State.pool_ok, State.edit_vacated]
  · rw [State.load_congr (State.alloc_ok _), State.load_vacated]
  · rw [State.bay_congr (State.bays_ok _), State.bay_vacated, Bay.restarted_eq]
  · rw [State.attention_ok, State.flags_vacated]

/-! ### RETIRE -/

namespace Sys2Proof.Machine

/-- A handle that names a record is resolved, and the record's own rule decides. -/
theorem State.withHandle_of_handle (s : State) (v : Nat) (f : RecIdx → State → State) (i : RecIdx) (h : s.handle i = v) :
    s.withHandle v f = f i s := by
  simp only [State.withHandle, s.resolve_handle v i h]

/-- A handle that names no record, or another life, is BAD_HANDLE (R4). -/
theorem State.withHandle_of_none (s : State) (v : Nat) (f : RecIdx → State → State) (h : ∀ i : RecIdx, s.handle i ≠ v) :
    s.withHandle v f = s.refuse .badHandle := by
  simp only [State.withHandle, s.resolve_none v h]

theorem exec_retireGraceful (s : State) (hi lo : Byte) (i : RecIdx) (h : s.handle i = u16 hi lo) :
    exec (.retireGraceful [hi, lo, 0]) s = .next (s.retireGraceful i) := by
  show Host.Outcome.next (s.withHandle (u16 hi lo) fun i s => s.retireGraceful i) = _
  rw [s.withHandle_of_handle _ _ i h]

theorem exec_retireImmediate (s : State) (hi lo : Byte) (i : RecIdx) (h : s.handle i = u16 hi lo) :
    exec (.retireImmediate [hi, lo, 1]) s = .next (s.retireImmediate i) := by
  show Host.Outcome.next (s.withHandle (u16 hi lo) fun i s => s.retireImmediate i) = _
  rw [s.withHandle_of_handle _ _ i h]

theorem exec_retire_badMode (s : State) (hi lo mode : Byte) (h : 1 < mode.toNat) :
    exec (.retireGraceful [hi, lo, mode]) s = .next (s.refuse .badArg) := by
  have h0 : ¬ mode.toNat = 0 := by omega
  have h1 : ¬ mode.toNat = 1 := by omega
  simp only [exec, execRetireGraceful, State.retire, h0, h1, if_false]

end Sys2Proof.Machine

/-- Settles O16: the record that the handle names decides, by its state. -/
theorem retireTaken : Obligations.RetireTaken := by
  refine ⟨fun s hi lo i h => ⟨fun u r e => ?_, fun u g e => ?_, fun u a c n e => ?_, exec_retire_badMode s hi lo⟩,
    fun s hi lo i h => ⟨fun u r e => ?_, fun u g e => ?_, fun u a c n e => ?_⟩⟩
  · exact ⟨_, s.entersSpent i _ _ u (by rw [e]; rfl), by rw [exec_retireGraceful s hi lo i h, State.retireGraceful, e]⟩
  · exact ⟨_, s.entersRetiring i _ u g e, by rw [exec_retireGraceful s hi lo i h, State.retireGraceful, e]⟩
  · rw [exec_retireGraceful s hi lo i h, State.retireGraceful, e]
  · exact ⟨_, s.entersSpent i _ _ u (by rw [e]; rfl), by rw [exec_retireImmediate s hi lo i h, State.retireImmediate, e]⟩
  · exact ⟨_, s.entersSpent i _ _ u (by rw [e]; rfl), by rw [exec_retireImmediate s hi lo i h, State.retireImmediate, e]⟩
  · exact ⟨_, s.entersSpent i _ _ u (by rw [e]; rfl), by rw [exec_retireImmediate s hi lo i h, State.retireImmediate, e]⟩

end

section
/-!
A change that passes R24: what it leaves of the record, by an EDIT.COMMIT (O22) and by a CHANGE of the record's bay (O34).
-/
set_option Elab.async false

namespace Sys2Proof.Machine

/-! ### The checks -/

/-- A pattern value that sets no bit outside its mask (R1). -/
theorem pattern_within {value mask : BitVec 6} (h : ∀ k : Fin 6, value.getLsbD k = true → mask.getLsbD k = true) :
    (value &&& ~~~mask) = 0#6 := by
  refine BitVec.eq_of_getLsbD_eq fun k hk => ?_
  simp only [BitVec.getLsbD_and, BitVec.getLsbD_not, hk, decide_true, Bool.true_and, BitVec.getLsbD_zero]
  cases hv : value.getLsbD k with
  | false => rfl
  | true => rw [h ⟨k, hk⟩ hv]; rfl

/-- The record checks of R24 that every state shares. -/
theorem Terms.changeOk_iff (t : Terms) : t.changeOk = true ↔ t.Sound ∧ (t.leaseLength = 0 → t.origin = .port) := by
  simp only [Terms.changeOk, Terms.Sound, Bool.and_eq_true, decide_eq_true_eq, beq_iff_eq, Bool.or_eq_true, bne_iff_ne, ne_eq]
  exact and_congr_right fun _ => ⟨fun h h0 => h.resolve_left fun hn => hn h0, fun h => or_iff_not_imp_left.mpr fun hn => h (not_not.mp hn)⟩

theorem Life.refuses_waiting {t : Terms} {r : WaitReason} {ch : ChangedFields} {c : EditCopy} :
    (Life.waiting t r).refuses ch c = if (t.changed ch c).changeOk then none else some .badArg := rfl

theorem Life.refuses_granted {t : Terms} {g : Grant} {ch : ChangedFields} {c : EditCopy} (hc : ch.cls = false) (hp : ch.pattern = false) :
    (Life.granted t g).refuses ch c =
      if (t.changed ch c).changeOk && decide ((t.changed ch c).floor ≤ min g.staged (t.changed ch c).requested) then none
      else some .badArg := by
  simp [Life.refuses, hc, hp]

/-! ### The record after a change -/

theorem State.applyChange_waiting (s : State) (i : RecIdx) (t : Terms) (r : WaitReason) (ch : ChangedFields) (c : EditCopy)
    (h : s.life i = .waiting t r) (hc : ch.cls = false) : s.applyChange i ch c = s.setLife i (.waiting (t.changed ch c) r) := by
  simp [State.applyChange, h, hc]

theorem State.applyChange_class (s : State) (i : RecIdx) (t : Terms) (r : WaitReason) (ch : ChangedFields) (c : EditCopy)
    (h : s.life i = .waiting t r) (hc : ch.cls = true) :
    s.applyChange i ch c = (s.setLife i (.waiting (t.changed ch c) (s.entryReason r))).requeue i (t.changed ch c).cls := by
  simp [State.applyChange, h, hc]

theorem State.applyChange_granted (s : State) (i : RecIdx) (t : Terms) (g : Grant) (ch : ChangedFields) (c : EditCopy)
    (h : s.life i = .granted t g) :
    s.applyChange i ch c = s.become i (.granted (t.changed ch c) (g.changed t (t.changed ch c) ch)) := by
  simp only [State.applyChange, h]

/-- A change of a GRANTED record that keeps its pattern (R25, R30, R179). -/
theorem State.regrants_applyChange (s : State) (i : RecIdx) (t : Terms) (g : Grant) (ch : ChangedFields) (c : EditCopy)
    (h : s.life i = .granted t g) (hp : ch.pattern = false) :
    Regrants s ((s.applyChange i ch c).markStale i) i t g (t.changed ch c) (g.changed t (t.changed ch c) ch) := by
  rw [s.applyChange_granted i t g ch c h]
  exact s.regrants i t _ g _ h (by simp [Terms.changed, hp])

/-! ### EDIT.COMMIT -/

/-- The change marks the window under which it was made, and the window closes (R179, R180, log 5). -/
theorem State.closeWindow_markStale (s : State) (i : RecIdx) (w : EditWindow) (h : s.pool.edit = some w) (hi : w.handle % 64 = i.val)
    (hs : w.stale = false) :
    (s.markStale i).closeWindow = { s.raise flagEditStale with pool := { s.pool with edit := none } } := by
  unfold State.markStale
  rw [h]
  dsimp only
  rw [if_pos ⟨hi, hs⟩]
  rfl

theorem exec_editCommit (s : State) (w : EditWindow) (i : RecIdx) (hw : s.pool.edit = some w) (hs : w.stale = false)
    (ha : w.changed.any = true) (hi : s.handle i = w.handle) (h : (s.life i).refuses w.changed w.copy = none) :
    exec (.editCommit []) s = .next (s.commitChange i w).ok := by
  simp [exec, execEditCommit, State.noArgs, hw, hs, ha, State.commitWindow, s.resolve_handle _ i hi, h]

theorem State.entryReason_spec (s : State) (r : WaitReason) :
    (s.alloc.opState ≠ .running → s.entryReason r = .hold) ∧
      (s.alloc.opState = .running → s.alloc.reclaiming = true → s.entryReason r = .budget) ∧
      (s.alloc.opState = .running → s.alloc.reclaiming = false → s.entryReason r = r) :=
  ⟨fun h => by simp [State.entryReason, h], fun h h' => by simp [State.entryReason, h, h'], fun h h' => by simp [State.entryReason, h, h']⟩

end Sys2Proof.Machine

open Sys2Proof Sys2Proof.Machine

/-- Settles O22: the change is applied by the state of the record, the window is marked by it and closed. -/
theorem editCommitApplied : Obligations.EditCommitApplied := by
  refine ⟨fun _ _ _ => rfl, ?_⟩
  intro s w i hw hs ha hi u v hf hv hl
  have hm : w.handle % 64 = i.val := mod_of_handle hi.symm
  have hok : v.changeOk = true := v.changeOk_iff.mpr ⟨⟨hf, pattern_within hv⟩, hl⟩
  refine ⟨fun r e => ?_, fun g e hc hp hfl => ?_⟩
  · have hexec := exec_editCommit s w i hw hs ha hi (by rw [e, Life.refuses_waiting]; exact if_pos hok)
    refine ⟨fun hc => ?_, fun hc => ?_⟩
    · rw [hexec, State.commitChange, s.applyChange_waiting i u r _ _ e hc]
      exact congrArg (fun x : State => Host.Outcome.next x.ok) ((s.setLife i (.waiting v r)).closeWindow_markStale i w hw hm hs)
    · obtain ⟨h1, h2, h3⟩ := s.entryReason_spec r
      obtain ⟨l₁, l₂, e1, k2, k1, eq⟩ := (s.setLife i (.waiting v (s.entryReason r))).requeue_eq i v.cls
      have e1 : s.alloc.waitQueue.filter (· ≠ i) = l₁ ++ l₂ := e1
      have hcls : ∀ j ∈ l₁ ++ l₂, (s.setLife i (.waiting v (s.entryReason r))).classOf j = s.classOf j := fun j hj => by
        rw [← e1, List.mem_filter, decide_eq_true_eq] at hj
        exact State.classOf_congr (by rw [State.life_setLife, if_neg hj.2])
      refine ⟨s.entryReason r, h1, h2, h3, l₁, l₂, e1, fun j hj => ?_, fun j hj => ?_, ?_⟩
      · rw [← hcls j (List.mem_append_right _ hj)]
        exact k2 j hj
      · rw [← hcls j (List.mem_append_left _ (List.mem_of_getLast? hj))]
        exact k1 j hj
      · rw [hexec, State.commitChange, s.applyChange_class i u r _ _ e hc, eq]
        exact congrArg (fun x : State => Host.Outcome.next x.ok) (State.closeWindow_markStale _ i w hw hm hs)
  · have hexec := exec_editCommit s w i hw hs ha hi (by
      rw [e, Life.refuses_granted hc hp]
      exact if_pos (Bool.and_eq_true_iff.mpr ⟨hok, decide_eq_true hfl⟩))
    have hR := s.regrants_applyChange i u g w.changed w.copy e hp
    exact ⟨_, hR, by rw [hR.staleFlag, hw]; simp [hm, hs], hexec⟩

namespace Sys2Proof.Machine

/-! ### A link request -/

theorem State.report_visit (s : State) (f : BayIdx → State → State) (h : s.link.phase ≠ .none) :
    s.report f = f s.link.position (s.endVisit Bay.reported) := if_neg h

theorem State.writeAnswer_eq (s : State) (b : BayIdx) (c : AnswerCode) (v : Nat) : s.writeAnswer b c v = answered s b c v := rfl

/-- A link handle that names no record, or another life (R5). -/
theorem State.resolveLink_none (s : State) (b : BayIdx) (v : Nat) (h : ∀ i, s.handle i ≠ v) : s.resolveLink b v = .error .badHandle := by
  rw [State.resolveLink, s.resolve_none v h]

/-- A link handle that names a record, by the record's state and bay (R5). -/
theorem State.resolveLink_some (s : State) (b : BayIdx) (v : Nat) (i : RecIdx) (h : s.handle i = v) :
    (s.life i = .free → s.resolveLink b v = .error .closed) ∧
      (∀ u, (s.life i).terms? = some u → u.bay ≠ b → s.resolveLink b v = .error .badHandle) ∧
      (∀ u x f, s.life i = .spent u x f → u.bay = b → s.resolveLink b v = .error .closed) ∧
      ∀ u, (s.life i).liveTerms? = some u → u.bay = b → s.resolveLink b v = .ok i := by
  rw [State.resolveLink, s.resolve_handle v i h]
  refine ⟨fun e => ?_, fun u e hb => ?_, fun u x f e hb => ?_, fun u e hb => ?_⟩
  · simp [e]
  · cases hl : s.life i <;> simp_all [Life.terms?]
  · simp [e, hb]
  · cases hl : s.life i <;> simp_all [Life.liveTerms?]

theorem State.withLinkHandle_error (s : State) (b : BayIdx) (v : Nat) (f : RecIdx → State → State) (c : AnswerCode)
    (h : s.resolveLink b v = .error c) : s.withLinkHandle b v f = answered s b c v := by
  rw [State.withLinkHandle, h]
  rfl

theorem State.withLinkHandle_ok (s : State) (b : BayIdx) (v : Nat) (f : RecIdx → State → State) (i : RecIdx)
    (h : s.resolveLink b v = .ok i) : s.withLinkHandle b v f = f i s := by
  rw [State.withLinkHandle, h]

/-! ### CHANGE -/

theorem exec_change (s : State) (h requested floor : Half) (hp : s.link.phase ≠ .none) :
    exec (.change h requested floor) s =
      .next ((s.endVisit Bay.reported).takeChange s.link.position h.toNat requested.toNat floor.toNat) :=
  congrArg _ (s.report_visit _ hp)

theorem State.takeChange_range (s : State) (b : BayIdx) (v requested floor : Nat) (h : requested = 0 ∨ 630 < requested ∨ 630 < floor) :
    s.takeChange b v requested floor = answered s b .badArg v := if_pos h

/-- A CHANGE of values in range of a live record of the bay (R172). -/
theorem State.takeChange_live (s : State) (b : BayIdx) (v requested floor : Nat) (i : RecIdx) (u : Terms) (h1 : 1 ≤ requested)
    (h2 : requested ≤ 630) (h3 : floor ≤ 630) (hi : s.handle i = v) (hu : (s.life i).liveTerms? = some u) (hb : u.bay = b) :
    ((∃ a c n, s.life i = .retiring u a c n) → s.takeChange b v requested floor = answered s b .expired v) ∧
      ((s.life i).holdsLoad = false ∨ (s.life i).isGranted = true →
        s.takeChange b v requested floor = s.changeRecord b v i (EditCopy.ofChange requested floor)) := by
  have hn : ¬ (requested = 0 ∨ 630 < requested ∨ 630 < floor) := by omega
  rw [State.takeChange, if_neg hn, s.withLinkHandle_ok b v _ i ((s.resolveLink_some b v i hi).2.2.2 u hu hb)]
  refine ⟨fun ⟨a, c, n, e⟩ => ?_, fun h => ?_⟩
  · rw [e]
    rfl
  · cases e : s.life i with
    | retiring t a c n => simp [e, Life.holdsLoad, Life.isGranted] at h
    | _ => rfl

/-- The terms that a CHANGE leaves (R172). -/
theorem Terms.changed_ofChange (u : Terms) (requested floor : Nat) :
    u.changed ChangedFields.ofChange (EditCopy.ofChange requested floor) = { u with requested := requested, floor := floor } := rfl

theorem Grant.changed_ofChange (g : Grant) (u w : Terms) :
    g.changed u w ChangedFields.ofChange = { g with staged := min g.staged w.requested } := rfl

/-- A change that R24 refuses is answered BAD_ARG (R172). -/
theorem State.changeRecord_refused (s : State) (b : BayIdx) (v : Nat) (i : RecIdx) (c : EditCopy)
    (h : (s.life i).refuses ChangedFields.ofChange c ≠ none) : s.changeRecord b v i c = answered s b .badArg v := by
  unfold State.changeRecord
  split
  · rfl
  · rename_i e
    exact absurd e h

theorem State.changeRecord_taken (s : State) (b : BayIdx) (v : Nat) (i : RecIdx) (c : EditCopy)
    (h : (s.life i).refuses ChangedFields.ofChange c = none) :
    s.changeRecord b v i c = answered ((s.applyChange i ChangedFields.ofChange c).markStale i) b .accepted v := by
  unfold State.changeRecord
  rw [h]
  rfl

end Sys2Proof.Machine

/-- Settles O34: the range first, then the record's state, then the checks of R24, and the change when they pass. -/
theorem changeTaken : Obligations.ChangeTaken := by
  intro s h requested floor hp b v taken
  have hexec := exec_change s h requested floor hp
  refine ⟨fun hr => ?_, fun h1 h2 h3 i hi u hb => ?_⟩
  · rw [show taken = _ from hexec, State.takeChange_range _ _ _ _ _ hr]
  have hlive := fun hu => State.takeChange_live v b h.toNat requested.toNat floor.toNat i u h1 h2 h3 hi hu hb
  have hw : ∀ r, s.life i = .waiting u r → taken = .next (v.changeRecord b h.toNat i (EditCopy.ofChange requested.toNat floor.toNat)) :=
    fun r e => by
      have e : v.life i = .waiting u r := e
      rw [show taken = _ from hexec, (hlive (by rw [e]; rfl)).2 (.inl (by rw [e]; rfl))]
  have hg : ∀ g, s.life i = .granted u g → taken = .next (v.changeRecord b h.toNat i (EditCopy.ofChange requested.toNat floor.toNat)) :=
    fun g e => by
      have e : v.life i = .granted u g := e
      rw [show taken = _ from hexec, (hlive (by rw [e]; rfl)).2 (.inr (by rw [e]; rfl))]
  refine ⟨fun a c n e => ?_, fun r e hf => ?_, fun g e hf => ?_, ?_⟩
  · have e : v.life i = .retiring u a c n := e
    rw [show taken = _ from hexec, (hlive (by rw [e]; rfl)).1 ⟨a, c, n, e⟩]
  · have hn : ¬ ({ u with requested := requested.toNat, floor := floor.toNat } : Terms).changeOk = true := fun hok =>
      absurd ((Terms.changeOk_iff _).mp hok).1.1 (Nat.not_le.mpr hf)
    have e' : v.life i = .waiting u r := e
    rw [hw r e, State.changeRecord_refused]
    rw [e', Life.refuses_waiting, Terms.changed_ofChange, if_neg hn]
    exact Option.some_ne_none _
  · have hn : ¬ floor.toNat ≤ min g.staged requested.toNat := Nat.not_le.mpr hf
    have e' : v.life i = .granted u g := e
    rw [hg g e, State.changeRecord_refused]
    rw [e', Life.refuses_granted rfl rfl, Terms.changed_ofChange, if_neg (by simp [hn])]
    exact Option.some_ne_none _
  intro hpat hlease w
  refine ⟨fun r e hf => ?_, fun g e hf => ?_⟩
  · have hok : w.changeOk = true := w.changeOk_iff.mpr ⟨⟨hf, hpat⟩, hlease⟩
    have e' : v.life i = .waiting u r := e
    refine ⟨(v.setLife i (.waiting w r)).markStale i, State.overtakes _ i, ?_⟩
    rw [hw r e, State.changeRecord_taken, v.applyChange_waiting i u r _ _ e' rfl]
    · rfl
    · rw [e', Life.refuses_waiting, Terms.changed_ofChange]
      exact if_pos hok
  · have hok : w.changeOk = true := w.changeOk_iff.mpr ⟨⟨hf.trans (min_le_right _ _), hpat⟩, hlease⟩
    have e' : v.life i = .granted u g := e
    refine ⟨_, v.regrants_applyChange i u g ChangedFields.ofChange (EditCopy.ofChange requested.toNat floor.toNat) e' rfl, ?_⟩
    rw [hg g e, State.changeRecord_taken]
    rw [e', Life.refuses_granted rfl rfl, Terms.changed_ofChange]
    exact if_pos (Bool.and_eq_true_iff.mpr ⟨hok, decide_eq_true hf⟩)

/-- Settles O33: the three requests share the resolution of R5, after CHANGE's range. -/
theorem linkHandleRefused : Obligations.LinkHandleRefused := by
  intro s h requested floor hp h1 h2 h3 c hc b v
  have hn : ¬ (requested.toNat = 0 ∨ 630 < requested.toNat ∨ 630 < floor.toNat) := by omega
  have hexec : ∀ x, v.resolveLink b h.toNat = .error x → exec c s = .next (answered v b x h.toNat) := by
    intro x hx
    simp only [List.mem_cons, List.not_mem_nil, or_false] at hc
    rcases hc with rfl | rfl | rfl
    · rw [exec_change s h requested floor hp, State.takeChange, if_neg hn, State.withLinkHandle_error _ _ _ _ x hx]
    · exact congrArg _ ((s.report_visit _ hp).trans (State.withLinkHandle_error v b _ _ x hx))
    · exact congrArg _ ((s.report_visit _ hp).trans (State.withLinkHandle_error v b _ _ x hx))
  refine ⟨fun hi => hexec _ (v.resolveLink_none b _ hi), fun i hi => ?_⟩
  obtain ⟨k1, k2, k3, -⟩ := v.resolveLink_some b _ i hi
  exact ⟨fun e => hexec _ (k1 e), fun u e hb => hexec _ (k2 u e hb), fun u x f e hb => hexec _ (k3 u x f e hb)⟩

end

section
/-!
The parts of a boundary that are steps of their own: a record's step at its bay (O42), and the ends of the strike window, the close window and a
settle interval (O43).
-/
set_option Elab.async false

namespace Sys2Proof.Machine

/-! ### Bays written more than once -/

theorem State.modBay_fixed (s : State) (b : BayIdx) (f : Bay → Bay) (h : f (s.bay b) = s.bay b) : s.modBay b f = s := by
  rw [State.modBay, h, State.setBay, State.bay, Vector.get_eq_getElem, Vector.set_getElem_self]

theorem Bay.setLimit_same (y : Bay) (n : Nat) (h : y.limit = n) : y.setLimit n = y := if_pos h.symm

/-- A block cause and its event in one write (R76, R109). -/
theorem State.blockBay_eq (s : State) (b : BayIdx) (c : BlockCause) : s.blockBay b c =
    (s.setBay b { s.bay b with blockCause := c, events := { (s.bay b).events with blocked := true } }).raise (bayFlag b) := by
  rw [State.blockBay, State.addEvent, State.modBay, State.bay_modBay_self, State.modBay]
  simp only [State.setBay, Vector.set_set]
  rfl

theorem State.bay_blockBay_self (s : State) (b : BayIdx) (c : BlockCause) : (s.blockBay b c).bay b =
    { s.bay b with blockCause := c, events := { (s.bay b).events with blocked := true } } := by
  rw [s.blockBay_eq]
  exact (State.bay_setBay ..).trans (if_pos rfl)

/-! ### The record a boundary found -/

theorem State.foundRecord_of_held (s : State) (b : BayIdx) (i : RecIdx) (hr : (s.bay b).record = some i)
    (hf : s.timer.found.get b = some (s.handle i)) : s.foundRecord b = some i :=
  (s.foundRecord_eq_some b i).mpr ⟨hr, hf⟩

theorem State.foundRecord_ne (s : State) (b : BayIdx) (i : RecIdx) (hf : s.timer.found.get b ≠ some (s.handle i)) :
    s.foundRecord b ≠ some i := fun h => hf ((s.foundRecord_eq_some b i).mp h).2

theorem State.foundRecord_modBay (s : State) (b : BayIdx) (f : Bay → Bay) (hf : (f (s.bay b)).record = (s.bay b).record) :
    (s.modBay b f).foundRecord b = s.foundRecord b := by
  rw [State.foundRecord, State.bay_modBay_self, hf]
  rfl

/-! ### The events -/

/-- The state in which an outstanding bay part finds its record: the part is taken off the list and the bay's graces end (R84, R85). -/
def State.opening (s : State) (b : BayIdx) : State :=
  { s with timer := { s.timer with outstanding := s.timer.outstanding.filter (· ≠ BoundaryPart.bay b) } }.modBay b Bay.endGraces

theorem State.bay_opening (s : State) (b c : BayIdx) : (s.opening b).bay c = if c = b then (s.bay b).endGraces else s.bay c :=
  State.bay_modBay _ b Bay.endGraces c

theorem State.bayBoundary_found (s : State) (b : BayIdx) (i : RecIdx) (h : (s.modBay b Bay.endGraces).foundRecord b = some i) :
    s.bayBoundary b = ((s.modBay b Bay.endGraces).recordBoundary i).modBay b
      fun y => y.setLimit (((s.modBay b Bay.endGraces).recordBoundary i).boundaryLimit b) := by
  simp only [State.bayBoundary, h]

theorem State.bayBoundary_unfound (s : State) (b : BayIdx) (h : (s.modBay b Bay.endGraces).foundRecord b = none) :
    s.bayBoundary b = (s.modBay b Bay.endGraces).modBay b fun y => y.setLimit ((s.modBay b Bay.endGraces).boundaryLimit b) := by
  simp only [State.bayBoundary, h]

/-- An outstanding bay part whose record the boundary found (R58, R78). -/
theorem State.takeOutstanding_bay (s : State) (b : BayIdx) (i : RecIdx) (h : s.foundRecord b = some i) :
    s.takeOutstanding (.bay b) =
      ((s.opening b).recordBoundary i).modBay b fun y => y.setLimit (((s.opening b).recordBoundary i).boundaryLimit b) := by
  have e : (s.opening b).foundRecord b = some i := by
    obtain ⟨hr, hf⟩ := (s.foundRecord_eq_some b i).mp h
    refine (State.foundRecord_eq_some _ b i).mpr ⟨?_, hf⟩
    rw [State.bay_opening, if_pos rfl]
    exact hr
  exact State.bayBoundary_found _ b i e

theorem State.recordEvent_due (s : State) (i : RecIdx) (due : Life → Bool) (u : Terms) (hu : (s.life i).terms? = some u)
    (ho : BoundaryPart.bay u.bay ∈ s.timer.outstanding) (hf : s.foundRecord u.bay = some i) (hd : due (s.life i) = true) :
    s.recordEvent i due = s.takeOutstanding (.bay u.bay) := by
  rw [State.recordEvent, hu]
  exact if_pos ⟨by simpa using ho, hf, hd⟩

/-- An event whose part is not outstanding, or whose record the boundary did not find, changes nothing (R10, log 1, 3). -/
theorem State.recordEvent_undue (s : State) (i : RecIdx) (due : Life → Bool)
    (h : ∀ u, (s.life i).terms? = some u → BoundaryPart.bay u.bay ∉ s.timer.outstanding ∨ s.timer.found.get u.bay ≠ some (s.handle i)) :
    s.recordEvent i due = s := by
  unfold State.recordEvent
  split
  · rename_i u hu
    refine if_neg fun ⟨ho, hf, _⟩ => ?_
    rcases h u hu with h | h
    · exact h (by simpa using ho)
    · exact s.foundRecord_ne u.bay i h hf
  · rfl

/-! ### The record's step -/

theorem State.recordBoundary_ends (s : State) (i : RecIdx) (u : Terms) (g : Grant) (c : EndCause) (h : s.life i = .granted u g)
    (hb : (g.boundary u).2 = some c) : s.recordBoundary i = (s.become i (.granted u (g.boundary u).1)).enterRetiring i c := by
  simp only [State.recordBoundary, h, hb]

theorem State.recordBoundary_goesOn (s : State) (i : RecIdx) (u : Terms) (g : Grant) (h : s.life i = .granted u g)
    (hb : (g.boundary u).2 = none) : s.recordBoundary i = s.become i (.granted u (g.boundary u).1) := by
  simp only [State.recordBoundary, h, hb]

theorem State.recordBoundary_rampEnds (s : State) (i : RecIdx) (u : Terms) (a n : Nat) (c : EndCause) (h : s.life i = .retiring u a c n)
    (hn : n ≤ 1) : s.recordBoundary i = (s.enterSpent i c true).blockBay u.bay .forcedOpen := by
  simp only [State.recordBoundary, h, if_pos hn, State.rampCut]

/-- A lease whose last period ends (R61). -/
theorem Grant.boundary_leaseEnds (g : Grant) (u : Terms) (n : Nat) (h : g.leaseLeft = some n) (hn : n ≤ 1) :
    g.boundary u = ({ g with active := g.staged, leaseLeft := some 0 }, some .leaseEnd) := by
  simp only [Grant.boundary, h, if_pos hn]

/-- Without the end of a lease the taper is counted (R61, R67). -/
theorem Grant.boundary_leaseRuns (g : Grant) (u : Terms) (h : ∀ n, g.leaseLeft = some n → 1 < n) :
    g.boundary u = Grant.countTaper u { g with active := g.staged, leaseLeft := g.leaseLeft.map (· - 1) } := by
  cases hl : g.leaseLeft with
  | none => simp only [Grant.boundary, hl, Option.map_none]
  | some n => simp only [Grant.boundary, hl, if_neg (Nat.not_le.mpr (h n hl)), Option.map_some]

/-- A last step of current 0 exhausts the taper (R68). -/
theorem countTaper_ends (l : List TaperStep) (ts : TaperState) (st : TaperStep) (h1 : ts.unopened = false) (h2 : ts.left = 1)
    (h3 : l[ts.step]? = some st) (h4 : st.current = 0) (h5 : l[ts.step + 1]? = none) :
    countTaper l ts = ({ ts with left := 0 }, true) := by
  simp [countTaper, h1, h2, h3, h4, h5]

/-- The next step opens (R67). -/
theorem countTaper_advances (l : List TaperStep) (ts : TaperState) (st : TaperStep) (h1 : ts.unopened = false) (h2 : ts.left = 1)
    (h3 : l[ts.step + 1]? = some st) : countTaper l ts = ({ step := ts.step + 1, left := st.periods, unopened := false }, false) := by
  simp [countTaper, h1, h2, h3]

/-- Activation gives the staged grant, whatever the counts do (R59). -/
theorem Grant.active_boundary (g : Grant) (u : Terms) : (g.boundary u).1.active = g.staged := by
  have hc : ∀ k : Grant, (Grant.countTaper u k).1.active = k.active := fun k => by
    unfold Grant.countTaper
    split <;> rfl
  unfold Grant.boundary
  dsimp only
  split
  · split
    · rfl
    · rw [hc]
  · rw [hc]

/-- Activation moves the load of an on position to the staged grant (R30, R59). -/
theorem State.load_activated (s : State) (i : RecIdx) (u : Terms) (g : Grant) (h : s.life i = .granted u g) (p : Position) :
    (s.become i (.granted u (g.boundary u).1)).load p =
      if u.onAt p then s.load p + g.staged - max g.active g.staged else s.load p := by
  rw [s.load_become i _ u rfl, h]
  simp only [Life.contribution, g.active_boundary u, g.staged_boundary u, max_self]

/-- What the activation of a GRANTED record at its bay's part leaves, before the record's counts are judged (R30, R59, R84). -/
structure Activates (s m : State) (i : RecIdx) (u : Terms) (g : Grant) : Prop where
  life : m.life i = .granted u (g.boundary u).1
  otherLives : ∀ j, j ≠ i → m.life j = s.life j
  loads : ∀ p, m.load p = if u.onAt p then s.load p + g.staged - max g.active g.staged else s.load p
  bays : ∀ b, m.bay b = (s.opening u.bay).bay b
  waitQueue : m.alloc.waitQueue = s.alloc.waitQueue
  grantOrder : m.alloc.grantOrder = s.alloc.grantOrder
  edit : m.pool.edit = s.pool.edit
  quiet : Quiet (s.opening u.bay) m

theorem State.activates (s : State) (i : RecIdx) (u : Terms) (g : Grant) (h : s.life i = .granted u g) :
    Activates s ((s.opening u.bay).become i (.granted u (g.boundary u).1)) i u g where
  life := by rw [State.life_become, if_pos rfl]
  otherLives j hj := by
    rw [State.life_become, if_neg hj]
    rfl
  loads := (s.opening u.bay).load_activated i u g h
  bays := State.bay_congr (State.bays_become ..)
  waitQueue := State.waitQueue_become ..
  grantOrder := State.grantOrder_become ..
  edit := State.edit_become ..
  quiet := quiet_become _ i _ (by simp [show (s.opening u.bay).life i = _ from h])

theorem State.bay_enterRetiring (s : State) (i : RecIdx) (c : EndCause) (u : Terms) (g : Grant) (h : s.life i = .granted u g) (b : BayIdx) :
    (s.enterRetiring i c).bay b = if b = u.bay then (s.bay u.bay).setLimit 0 else s.bay b := by
  rw [s.enterRetiring_granted i c u g h, State.bay_congr (State.bays_markStale ..), State.bay_modBay]
  have e : ∀ b, ((s.become i (.retiring u g.active c s.params.retireTimeout)).unlist i).bay b = s.bay b := fun b =>
    (State.bay_congr (State.bays_unlist ..) b).trans (State.bay_congr (State.bays_become ..) b)
  rw [e, e]

/-- A bay part whose record's grant ends: activation and RETIRING, and the boundary's limit is the 0 that the bay has (R15, R59, R71). -/
theorem State.takeOutstanding_ends (s : State) (i : RecIdx) (u : Terms) (g : Grant) (c : EndCause) (h : s.life i = .granted u g)
    (hf : s.foundRecord u.bay = some i) (hb : (g.boundary u).2 = some c) :
    s.takeOutstanding (.bay u.bay) = ((s.opening u.bay).become i (.granted u (g.boundary u).1)).enterRetiring i c := by
  have hr : (s.bay u.bay).record = some i := ((s.foundRecord_eq_some _ _).mp hf).1
  rw [s.takeOutstanding_bay _ i hf, (s.opening u.bay).recordBoundary_ends i u g c h hb]
  have A := s.activates i u g h
  generalize (s.opening u.bay).become i (.granted u (g.boundary u).1) = m at *
  have R := m.entersRetiring i c u (g.boundary u).1 A.life
  have ht : ((m.enterRetiring i c).bay u.bay).record = some i := by
    rw [R.bay, A.bays, State.bay_opening, if_pos rfl]
    exact hr
  refine State.modBay_fixed _ _ _ (Bay.setLimit_same _ _ ?_)
  rw [R.limit.1, State.boundaryLimit_zero]
  rw [bayLife_eq ht, R.life]
  simp [Life.isGranted]

/-- The record of a bay part whose record the boundary did not find stands (R10). -/
theorem State.takePart_unfound (s : State) (b : BayIdx) (p : BoundaryPart) (hp : p = .bay b ∨ p = .strikes b) (h : s.foundRecord b = none) :
    (s.takePart p).pool = s.pool ∧ (s.takePart p).alloc = s.alloc ∧ (s.takePart p).foundRecord b = none := by
  rcases hp with rfl | rfl
  · have e : (s.modBay b Bay.endGraces).foundRecord b = none := (s.foundRecord_modBay b _ rfl).trans h
    have ht : s.takePart (.bay b) = _ := s.bayBoundary_unfound b e
    rw [ht]
    exact ⟨rfl, rfl, (State.foundRecord_modBay _ b _ (Bay.setLimit_frame _ _).1).trans e⟩
  · have ht : s.takePart (.strikes b) = s := by
      simp only [State.takePart, State.countStrikeWindow, h]
    rw [ht]
    exact ⟨rfl, rfl, h⟩

theorem State.takeParts_unfound (b : BayIdx) : ∀ (l : List BoundaryPart) (s : State), (∀ p ∈ l, p = .bay b ∨ p = .strikes b) →
    s.foundRecord b = none → (s.takeParts l).pool = s.pool ∧ (s.takeParts l).alloc = s.alloc
  | [], _, _, _ => ⟨rfl, rfl⟩
  | p :: l, s, hl, h => by
    obtain ⟨h1, h2, h3⟩ := s.takePart_unfound b p (hl p List.mem_cons_self) h
    obtain ⟨k1, k2⟩ := State.takeParts_unfound b l (s.takePart p) (fun q hq => hl q (List.mem_cons_of_mem p hq)) h3
    exact ⟨k1.trans h1, k2.trans h2⟩

theorem exec_millisecondTick (s : State) (hr : s.timer.running = true) (hm : s.timer.ms + 1 < s.params.periodLength) :
    exec .millisecondTick s =
      .next { s.finishBoundary with timer := { s.finishBoundary.timer with ms := s.finishBoundary.timer.ms + 1 } } :=
  congrArg _ (if_pos ⟨hr, hm⟩)

end Sys2Proof.Machine

open Sys2Proof Sys2Proof.Machine

/-- Settles O42: LEASE_END and TAPER_END activate and retire the record, TAPER_STEP_ADVANCE activates it and caps the limit, RAMP_TIMEOUT ends it
and blocks the bay, and a record the boundary did not find stands. -/
theorem recordEventsTaken : Obligations.RecordEventsTaken := by
  refine ⟨?_, ?_, ?_, ?_⟩
  · intro s i u g h hr ho hf c cause hc
    have hfr := s.foundRecord_of_held u.bay i hr hf
    obtain ⟨due, hexec, hdue, hb⟩ : ∃ due, exec c s = .next (s.recordEvent i due) ∧ due (s.life i) = true ∧
        (g.boundary u).2 = some cause := by
      rcases hc with ⟨rfl, rfl, n, hn, hn1⟩ | ⟨rfl, rfl, hn, ts, st, h1, h2, h3, h4, h5, h6⟩
      · have hb := g.boundary_leaseEnds u n hn hn1
        exact ⟨Life.leaseEnds, rfl, by rw [h]; simp [Life.leaseEnds, hb], by rw [hb]⟩
      · have hb : (g.boundary u).2 = some .taperEnd := by
          rw [g.boundary_leaseRuns u hn]
          simp only [Grant.countTaper, h1, countTaper_ends u.taper ts st h2 h3 h4 h5 h6, if_true]
        exact ⟨Life.taperEnds, rfl, by rw [h]; simp [Life.taperEnds, hb], hb⟩
    have ht : s.recordEvent i due = ((s.opening u.bay).become i (.granted u (g.boundary u).1)).enterRetiring i cause := by
      rw [s.recordEvent_due i due u (by rw [h]; rfl) ho hfr hdue, s.takeOutstanding_ends i u g cause h hfr hb]
    rw [ht] at hexec
    have A := s.activates i u g h
    have ha := g.active_boundary u
    have hs := g.staged_boundary u
    generalize (s.opening u.bay).become i (.granted u (g.boundary u).1) = m at *
    have R := m.entersRetiring i cause u (g.boundary u).1 A.life
    have hbu := m.bay_enterRetiring i cause u (g.boundary u).1 A.life u.bay
    have K := quiet_enterRetiring m i cause
    have hby : m.bay u.bay = (s.bay u.bay).endGraces := (A.bays u.bay).trans (by rw [State.bay_opening, if_pos rfl])
    rw [if_pos rfl, hby] at hbu
    refine ⟨_, hexec, ?_, fun j hj => (R.otherLives j hj).trans (A.otherLives j hj), fun p => ?_, R.grantOrder.trans (by rw [A.grantOrder]),
      R.limit.1, ?_, ?_, ?_, fun b hne => ?_, R.window.trans (by rw [A.edit]), K.timer.trans A.quiet.timer, K.sampler.trans A.quiet.sampler,
      K.params.trans A.quiet.params, K.clock.trans A.quiet.clock, K.link.trans A.quiet.link, K.thermal.trans A.quiet.thermal,
      R.waitQueue.trans (by rw [A.waitQueue])⟩
    · rw [R.life, ha, A.quiet.params]
      rfl
    · rw [R.loads p, A.loads p, ha, hs]
      split
      · rw [max_self]
        exact Nat.add_sub_cancel _ _
      · rfl
    · rw [hbu, (Bay.setLimit_frame _ _).2.1]
      rfl
    · rw [hbu, (Bay.setLimit_frame _ _).2.2.2.2]
      rfl
    · rw [hbu, (Bay.setLimit_spec _ _).2.2]
      rfl
    · rw [R.otherBays b hne, A.bays, State.bay_opening, if_neg hne]
  · intro s i u g ts st h hr ho hf hn h1 h2 h3 h4
    have hfr := s.foundRecord_of_held u.bay i hr hf
    have hb : g.boundary u = ({ g with
        active := g.staged, leaseLeft := g.leaseLeft.map (· - 1)
        taperState := some { step := ts.step + 1, left := st.periods, unopened := false } }, none) := by
      rw [g.boundary_leaseRuns u hn]
      simp only [Grant.countTaper, h1, countTaper_advances u.taper ts st h2 h3 h4]
      rfl
    have hdue : Life.taperAdvances (s.life i) = true := by
      rw [h]
      simp [Life.taperAdvances, hb, h1]
    have ht := s.recordEvent_due i Life.taperAdvances u (by rw [h]; rfl) ho hfr hdue
    rw [s.takeOutstanding_bay _ i hfr, (s.opening u.bay).recordBoundary_goesOn i u g h (by rw [hb])] at ht
    have A := s.activates i u g h
    generalize (s.opening u.bay).become i (.granted u (g.boundary u).1) = m at *
    have hl := A.life
    rw [hb] at hl
    have hlim : m.boundaryLimit u.bay = if u.onAt s.timer.position then min g.staged st.current else 0 := by
      have hmr : (m.bay u.bay).record = some i := by
        rw [A.bays, State.bay_opening, if_pos rfl]
        exact hr
      rw [State.boundaryLimit, bayLife_eq hmr, hl, A.quiet.timer]
      simp only [Life.limitAt, stepCurrent, Option.bind_some, h4, Option.map_some]
      rfl
    refine ⟨_, congrArg Host.Outcome.next ht, hl, A.otherLives, A.loads, ?_, fun b hne => ?_, A.edit, A.quiet.timer, A.grantOrder, A.waitQueue⟩
    · rw [State.bay_modBay_self, (Bay.setLimit_spec _ _).1, hlim]
    · rw [State.bay_modBay, if_neg hne, A.bays, State.bay_opening, if_neg hne]
  · intro s i u a n c h hn hr he ho hf
    have hfr := s.foundRecord_of_held u.bay i hr hf
    have E := (s.opening u.bay).entersSpent i c true u (by rw [show (s.opening u.bay).life i = _ from h]; rfl)
    refine ⟨_, E, ?_⟩
    have ht := s.recordEvent_due i Life.rampEnds u (by rw [h]; rfl) ho hfr (by rw [h]; exact decide_eq_true hn)
    rw [s.takeOutstanding_bay _ i hfr, (s.opening u.bay).recordBoundary_rampEnds i u a n c h hn] at ht
    have hz : (((s.opening u.bay).enterSpent i c true).bay u.bay).limit = 0 := (E.opening (by rw [State.bay_opening, if_pos rfl]; exact he)).1
    have hnone := E.entry.1
    generalize (s.opening u.bay).enterSpent i c true = m at *
    refine congrArg _ (ht.trans (Eq.trans ?_ (m.blockBay_eq u.bay .forcedOpen)))
    have hb := m.bay_blockBay_self u.bay .forcedOpen
    refine State.modBay_fixed _ _ _ (Bay.setLimit_same _ _ ?_)
    rw [State.boundaryLimit_zero, hb]
    · exact hz
    · simp [State.bayLife, hb, hnone]
  · intro s i u g h hr hp hf hrun hms
    have hnone : s.foundRecord u.bay = none := Option.eq_none_iff_forall_ne_some.mpr fun j hj => by
      have hj1 := ((s.foundRecord_eq_some _ _).mp hj).1
      rw [hr] at hj1
      cases hj1
      exact s.foundRecord_ne u.bay i hf hj
    obtain ⟨h1, h2⟩ := State.takeParts_unfound u.bay s.timer.outstanding { s with timer := { s.timer with outstanding := [] } } hp hnone
    exact ⟨_, exec_millisecondTick s hrun hms, h1, h2, by rw [timer_finishBoundary]⟩

namespace Sys2Proof.Machine

/-! ### The counters that end -/

theorem exec_strikeWindowEnd (s : State) (i : RecIdx) (u : Terms) (hu : (s.life i).terms? = some u)
    (ho : BoundaryPart.strikes u.bay ∈ s.timer.outstanding) (hf : s.foundRecord u.bay = some i) (he : (s.life i).strikeWindowEnds = true) :
    exec (.strikeWindowEnd i) s = .next (s.takeOutstanding (.strikes u.bay)) := by
  refine congrArg Host.Outcome.next ?_
  rw [hu]
  exact if_pos ⟨by simpa using ho, hf, he⟩

theorem exec_strikeWindowEnd_undue (s : State) (i : RecIdx)
    (h : ∀ u, (s.life i).terms? = some u →
      BoundaryPart.strikes u.bay ∉ s.timer.outstanding ∨ s.timer.found.get u.bay ≠ some (s.handle i)) :
    exec (.strikeWindowEnd i) s = .next s := by
  refine congrArg Host.Outcome.next ?_
  split
  · rename_i u hu
    refine if_neg fun ⟨ho, hf, _⟩ => ?_
    rcases h u hu with h | h
    · exact h (by simpa using ho)
    · exact s.foundRecord_ne u.bay i h hf
  · rfl

/-- The strike window that ends is loaded again, with no strikes (R106). -/
theorem State.countStrikeWindow_ends (s : State) (b : BayIdx) (i : RecIdx) (u : Terms) (g : Grant) (hf : s.foundRecord b = some i)
    (h : s.life i = .granted u g) (hn : g.strikeWindowLeft ≤ 1) :
    s.countStrikeWindow b = s.setLife i (.granted u { g with strikes := 0, strikeWindowLeft := s.params.strikeWindow }) := by
  simp only [State.countStrikeWindow, hf, h, if_pos hn]

/-- The close window that ends is loaded again, every close count returns to 0, and the end is a trigger (R87). -/
theorem State.countCloseWindow_ends (s : State) (h : s.closeWindowLeft ≤ 1) : s.countCloseWindow = { s with
    bays := (s.modBays fun y => { y with closeCount := 0 }).bays
    closeWindowLeft := s.params.closeWindow
    alloc := { s.alloc with passDue := s.alloc.passDue || (s.alloc.opState == OpState.running && !s.alloc.reclaiming) } } := by
  rw [State.countCloseWindow, if_pos h, State.trigger_eq]
  rfl

/-- The settle interval that ends: the bay samples, and its first request is raised (R119). -/
theorem State.countSettle_ends (s : State) (b : BayIdx) (hc : (s.bay b).calState = .settling) (h : (s.bay b).settleLeft ≤ 1) :
    s.countSettle b = { s.setBay b { s.bay b with calState := .sampling, settleLeft := 0 } with
      sampler := { s.sampler with calRequests := addChannel (bayChannel b) s.sampler.calRequests } } := by
  simp only [State.countSettle, hc, if_pos h]
  rfl

end Sys2Proof.Machine

/-- Settles O43: each end is its part taken alone, and an event whose part is not outstanding, or whose record the boundary did not find,
changes nothing. -/
theorem windowsEnd : Obligations.WindowsEnd := by
  refine ⟨fun s => ⟨fun i u g h hn hr ho hf => ?_, fun hn ho => ?_, fun b hc hn ho => ?_⟩, ?_⟩
  · have hfr := s.foundRecord_of_held u.bay i hr hf
    rw [exec_strikeWindowEnd s i u (by rw [h]; rfl) ho hfr (by rw [h]; exact decide_eq_true hn)]
    exact congrArg Host.Outcome.next (State.countStrikeWindow_ends _ u.bay i u g hfr h hn)
  · refine ⟨(s.modBays fun y => { y with closeCount := 0 }).bays, s.bay_modBays _, congrArg Host.Outcome.next ?_⟩
    rw [if_pos ⟨by simpa using ho, hn⟩]
    exact State.countCloseWindow_ends _ hn
  · refine ⟨addChannel (bayChannel b) s.sampler.calRequests, fun d => mem_addChannel _ d _, sorted_addChannel _ _,
      congrArg Host.Outcome.next ?_⟩
    rw [if_pos ⟨by simpa using ho, hc, hn⟩]
    exact State.countSettle_ends _ b hc hn
  · intro s i b hbay hstrikes hclose hsettle c hc
    have hrec := fun due => s.recordEvent_undue i due hbay
    simp only [List.mem_cons, List.not_mem_nil, or_false] at hc
    rcases hc with rfl | rfl | rfl | rfl | rfl | rfl | rfl
    · exact congrArg Host.Outcome.next (hrec _)
    · exact congrArg Host.Outcome.next (hrec _)
    · exact congrArg Host.Outcome.next (hrec _)
    · exact congrArg Host.Outcome.next (hrec _)
    · exact exec_strikeWindowEnd_undue s i hstrikes
    · exact congrArg Host.Outcome.next (if_neg fun h => hclose (by simpa using h.1))
    · exact congrArg Host.Outcome.next (if_neg fun h => hsettle (by simpa using h.1))

end

section
/-!
The ramp of a RETIRING record at a conversion's end (O48).
-/
set_option Elab.async false

namespace Sys2Proof.Machine

/-- A RETIRING record supervises its bay (R102, R103). -/
theorem State.watch_retiring (s : State) (b : BayIdx) (i : RecIdx) (u : Terms) (a n : Nat) (c : EndCause) (hr : (s.bay b).record = some i)
    (hl : s.life i = .retiring u a c n) : s.watch b = .retiring i := by
  simp only [State.watch, hr, hl]

/-- A ramp that has come to rest ends as SPENT, not forced, with the cause it had (R20). -/
theorem State.rampEnd_retiring (s : State) (i : RecIdx) (u : Terms) (a n : Nat) (c : EndCause) (hl : s.life i = .retiring u a c n) :
    s.rampEnd i = s.enterSpent i c false := by
  simp only [State.rampEnd, hl]

theorem scanned_frame (s : State) (b : BayIdx) (i : RecIdx) (r : Nat) :
    (scanned s b i r).record = (s.bay b).record ∧ (scanned s b i r).calState = (s.bay b).calState := by
  unfold scanned
  dsimp only
  split
  · split <;> exact ⟨rfl, rfl⟩
  · exact ⟨rfl, rfl⟩

/-- Entry into SPENT moves no bay's calibration (R19). -/
theorem EntersSpent.calState {s t : State} {i : RecIdx} {u : Terms} {c : EndCause} {f : Bool} (E : EntersSpent s t i u c f) (b : BayIdx) :
    (t.bay b).calState = (s.bay b).calState := by
  by_cases hb : b = u.bay
  · rw [hb, E.bay]
  · rw [E.otherBays b hb]

/-- Entry into SPENT does not look at the Sampler. -/
theorem EntersSpent.sampler {s t : State} {i : RecIdx} {u : Terms} {c : EndCause} {f : Bool} {m : Sampler}
    (E : EntersSpent { s with sampler := m } t i u c f) : EntersSpent s { t with sampler := s.sampler } i u c f :=
  ⟨E.life, E.otherLives, E.generations, E.freeList, E.waitQueue, E.grantOrder, E.loads, E.reclaiming, E.reclaimFlag, E.passDue, E.entry,
    E.opening, E.alreadyOpen, E.bay, E.otherBays, E.bayFlag, E.otherFlags, E.window, E.staleFlag,
    congrArg (fun x : State => { x with sampler := s.sampler }) E.frame⟩

/-- A bay under a RETIRING record after a result `r`: a scan result is counted for the charge, a CONFIRM result is not (R101, R113). -/
def State.sampled (s : State) (kind : ConvKind) (b : BayIdx) (i : RecIdx) (r : Nat) : Bay :=
  if kind = .scan then scanned s b i r else { s.bay b with latestSample := r }

theorem State.sampled_frame (s : State) (kind : ConvKind) (b : BayIdx) (i : RecIdx) (r : Nat) :
    (s.sampled kind b i r).record = (s.bay b).record ∧ (s.sampled kind b i r).calState = (s.bay b).calState := by
  unfold State.sampled
  split
  · exact scanned_frame s b i r
  · exact ⟨rfl, rfl⟩

/-- A CONFIRM result above the rest threshold leaves the ramp (R103, R107). -/
theorem State.deliver_rampRuns (s : State) (raw : Int) (b : BayIdx) (i : RecIdx) (u : Terms) (a n : Nat) (c : EndCause)
    (hr : (s.bay b).record = some i) (hl : s.life i = .retiring u a c n) (h : s.params.restThreshold < s.resultOf (bayChannel b) raw) :
    s.deliver { kind := .confirm, channel := bayChannel b } raw =
      s.setBay b { s.bay b with latestSample := s.resultOf (bayChannel b) raw } := by
  have hw : (s.latest b (s.resultOf (bayChannel b) raw)).watch b = .retiring i :=
    State.watch_retiring _ b i u a n c (by rw [State.latest, State.bay_modBay_self]; exact hr) hl
  simp only [State.deliver, State.deliverConfirm, channelBay_bayChannel, State.judgeConfirm, hw]
  exact if_neg (Nat.not_le.mpr h)

/-- A scan or CONFIRM result at or below the rest threshold ends the ramp (R20, R102, R103); an IDLE bay's calibration has no quiet rule. -/
theorem State.deliver_rampEnds (s : State) (raw : Int) (b : BayIdx) (i : RecIdx) (u : Terms) (a n : Nat) (c : EndCause) (kind : ConvKind)
    (hr : (s.bay b).record = some i) (hl : s.life i = .retiring u a c n) (hc : (s.bay b).calState = .idle)
    (hk : kind = .scan ∨ kind = .confirm) (h : s.resultOf (bayChannel b) raw ≤ s.params.restThreshold) :
    s.deliver { kind := kind, channel := bayChannel b } raw =
      (s.setBay b (s.sampled kind b i (s.resultOf (bayChannel b) raw))).enterSpent i c false := by
  obtain ⟨f1, f2⟩ := s.sampled_frame kind b i (s.resultOf (bayChannel b) raw)
  generalize hy : s.sampled kind b i (s.resultOf (bayChannel b) raw) = y at f1 f2 ⊢
  have hby : (s.setBay b y).bay b = y := by rw [State.bay_setBay, if_pos rfl]
  have hw : (s.setBay b y).watch b = .retiring i := State.watch_retiring _ b i u a n c (by rw [hby, f1]; exact hr) hl
  have hend := (s.setBay b y).rampEnd_retiring i u a n c hl
  have E := (s.setBay b y).entersSpent i c false u (by rw [show (s.setBay b y).life i = _ from hl]; rfl)
  rcases hk with rfl | rfl
  · have hcount : (s.latest b (s.resultOf (bayChannel b) raw)).countCharge b (s.resultOf (bayChannel b) raw) = s.setBay b y := by
      rw [s.countCharge_held b _ i hr (by rw [hl]; rfl), ← hy]
      rfl
    have hj : (s.setBay b y).judgeScan b (s.resultOf (bayChannel b) raw) = (s.setBay b y).enterSpent i c false := by
      rw [State.judgeScan, hw, ← hend]
      exact if_pos h
    simp only [State.deliver, State.deliverScan, channelBay_bayChannel, hcount, hj]
    refine if_neg fun ⟨hq, _⟩ => ?_
    rw [E.calState, hby, f2, hc] at hq
    cases hq
  · have hlatest : s.latest b (s.resultOf (bayChannel b) raw) = s.setBay b y := by
      rw [← hy]
      rfl
    simp only [State.deliver, State.deliverConfirm, channelBay_bayChannel, hlatest, State.judgeConfirm, hw, ← hend]
    exact if_pos h

end Sys2Proof.Machine

open Sys2Proof Sys2Proof.Machine

/-- Settles O48: the result delivered ends or leaves the ramp, before or after the next conversion is chosen. -/
theorem rampEnds : Obligations.RampEnds := by
  intro s raw late b i u a n c kind hcur hr hl hc
  have hexec := execConversionEnd_current ⟨raw, late⟩ s _ hcur
  refine ⟨fun hk h => ?_, fun hk h => ?_⟩
  · subst hk
    refine hexec.trans (congrArg Host.Outcome.next ?_)
    cases late with
    | false => exact congrArg State.nextConversion (s.deliver_rampRuns raw b i u a n c hr hl h)
    | true => exact s.nextConversion.deliver_rampRuns raw b i u a n c hr hl h
  · cases late with
    | false =>
      have hd := s.deliver_rampEnds raw b i u a n c kind hr hl hc hk h
      refine ⟨_, (s.setBay b (s.sampled kind b i (s.resultOf (bayChannel b) raw))).entersSpent i c false u ?_, hexec.trans ?_⟩
      · rw [show (s.setBay b _).life i = _ from hl]
        rfl
      · rw [if_neg Bool.false_ne_true, hd]
        simp only [State.nextConversion, (quiet_enterSpent _ i c false).sampler, State.sampler_setBay]
    | true =>
      have hd := s.nextConversion.deliver_rampEnds raw b i u a n c kind hr hl hc hk h
      have E := (s.nextConversion.setBay b (s.nextConversion.sampled kind b i (s.nextConversion.resultOf (bayChannel b) raw))).entersSpent
        i c false u (by rw [show (s.nextConversion.setBay b _).life i = _ from hl]; rfl)
      refine ⟨_, EntersSpent.sampler (s := s.setBay b (s.sampled kind b i (s.resultOf (bayChannel b) raw))) (m := s.sampler.choose) E,
        hexec.trans ?_⟩
      rw [if_pos rfl, hd]
      exact congrArg (fun m => Host.Outcome.next { State.enterSpent _ i c false with sampler := m }) (quiet_enterSpent _ i c false).sampler

end

section
/-!
The step (O1), device reset and what holds after it (O3, O4, O52), and the commands that hold and resume the part (O8).
-/
set_option Elab.async false

namespace Sys2Proof.Machine

/-! ### Device reset -/

theorem exec_deviceReset (s : State) : exec .deviceReset s = .next { State.reset with pending := s.pending } := rfl

theorem State.record_reset (i : RecIdx) : State.reset.record i = { generation := 0, life := .free } := by
  simp [State.record, State.reset, Pool.reset, Vector.get_eq_getElem]

theorem State.handle_reset (i : RecIdx) : State.reset.handle i = i.val := by
  rw [State.handle, State.record_reset]
  exact (congrArg (· + i.val) (Nat.zero_mul 64)).trans (Nat.zero_add _)

theorem State.load_reset (p : Position) : State.reset.load p = 0 := by
  simp [State.load, State.reset, Allocator.reset, Vector.get_eq_getElem]

theorem State.flags_reset (f : Flag) : State.reset.attention.flags.get f = .lowered := by
  simp [State.reset, Attention.reset, Vector.get_eq_getElem]

/-- Every flag is LOWERED, so the line is not asserted (R181, R183). -/
theorem State.attentionLine_reset : State.reset.attentionLine = false := by
  refine Bool.eq_false_iff.mpr fun h => ?_
  rw [State.attentionLine, List.any_eq_true] at h
  obtain ⟨f, -, hf⟩ := h
  rw [State.flags_reset] at hf
  exact absurd hf Bool.false_ne_true

/-! ### What holds after reset -/

theorem listsExact_reset : State.reset.ListsExact := by
  refine ⟨⟨List.nodup_finRange 48, fun i => iff_of_true (List.mem_finRange i) (State.life_reset i)⟩,
    ⟨List.nodup_nil, fun i => iff_of_false List.not_mem_nil ?_, List.Pairwise.nil⟩,
    ⟨List.nodup_nil, fun i => iff_of_false List.not_mem_nil ?_⟩⟩
  · rw [State.life_reset]
    exact Bool.false_ne_true
  · rw [State.life_reset]
    exact Bool.false_ne_true

theorem baysExact_reset : State.reset.BaysExact := fun b i => by
  rw [State.bay_reset, State.life_reset]
  exact iff_of_false (nomatch ·) (nomatch ·)

theorem grantsWithinTerms_reset : State.reset.GrantsWithinTerms := fun i => by
  rw [State.life_reset]
  exact Life.legal_free

theorem loadsExact_reset : State.reset.LoadsExact := fun p => by
  rw [State.load_reset]
  refine (List.sum_eq_zero fun n hn => ?_).symm
  obtain ⟨i, -, rfl⟩ := List.mem_map.mp hn
  rw [State.life_reset]
  rfl

theorem outputsExact_reset : State.reset.OutputsExact := fun b => by
  rw [State.bayLife, State.bay_reset]
  exact ⟨iff_of_false (nomatch ·) (nomatch ·), fun _ => ⟨rfl, rfl⟩, fun _ _ h => (nomatch h), fun _ => rfl⟩

/-! ### Hold reasons and RESUME -/

theorem exec_holdSet (s : State) : exec (.holdSet []) s = .next (if s.alloc.holdPort then s else s.setHoldPort).ok := rfl

theorem exec_holdClear (s : State) : exec (.holdClear []) s = .next (if s.alloc.holdPort then s.clearHoldPort else s).ok := rfl

theorem exec_resume (s : State) : exec (.resume []) s =
    .next (if s.alloc.opState = .trip ∧ s.thermal.zone ≠ .critical then s.enterWork.ok else s.refuse .state) := rfl

/-- Work is entered as HOLD under a hold reason, else as RUNNING, which is a trigger (R154). -/
theorem State.enterWork_eq (s : State) : s.enterWork = { s with alloc := { s.alloc with
    opState := if s.alloc.holdPort || s.alloc.holdClock then .hold else .running
    passDue := s.alloc.passDue || !(s.alloc.holdPort || s.alloc.holdClock || s.alloc.reclaiming) } } := by
  unfold State.enterWork
  by_cases hp : s.alloc.holdPort = true
  · simp [hp]
  · by_cases hc : s.alloc.holdClock = true
    · simp [hc]
    · simp [hp, hc, State.trigger_eq]

theorem State.setHoldPort_running (s : State) (h : s.alloc.opState = .running) :
    s.setHoldPort = { s with alloc := { s.alloc with holdPort := true, opState := .hold } }.setAllWaitReasons .hold := if_pos h

theorem State.setHoldPort_other (s : State) (h : s.alloc.opState ≠ .running) :
    s.setHoldPort = { s with alloc := { s.alloc with holdPort := true } } := if_neg h

theorem State.clearHoldPort_hold (s : State) (h : s.alloc.opState = .hold) :
    s.clearHoldPort = { s with alloc := { s.alloc with holdPort := false } }.enterWork := if_pos h

/-- With a hold reason left HOLD stands, and any other state is not left (R154). -/
theorem State.clearHoldPort_held (s : State) (h : s.alloc.opState ≠ .hold ∨ s.alloc.holdClock = true) :
    s.clearHoldPort = { s with alloc := { s.alloc with holdPort := false } } := by
  by_cases ho : s.alloc.opState = .hold
  · have hc : s.alloc.holdClock = true := h.resolve_left fun hn => hn ho
    rw [s.clearHoldPort_hold ho, State.enterWork_eq]
    simp [hc, ← ho]
  · exact if_neg ho

end Sys2Proof.Machine

open Sys2Proof Sys2Proof.Machine

/-- Settles O1: by the two cases of the queue. -/
theorem stepTakesFront : Obligations.StepTakesFront :=
  ⟨fun c rest s h => by rw [step, h], fun _ _ => rfl, fun s h => by rw [step, h]⟩

/-- Settles O3: the pool and the bays of the reset state, record by record. -/
theorem resetPool : Obligations.ResetPool := by
  intro s
  refine ⟨_, exec_deviceReset s, fun i => ⟨State.record_reset i, State.handle_reset i⟩, rfl, fun i u c f h => ?_, fun b => ?_, rfl⟩
  · rw [show ({ State.reset with pending := s.pending } : State).life i = _ from State.life_reset i] at h
    cases h
  · rw [show ({ State.reset with pending := s.pending } : State).bay b = _ from State.bay_reset b]
    exact ⟨rfl, rfl⟩

/-- Settles O4: each block's reset value, the tables entry by entry. -/
theorem resetValues : Obligations.ResetValues := by
  intro s
  refine ⟨exec_deviceReset s, State.load_reset, rfl, rfl, rfl, rfl, rfl, rfl, rfl, rfl, rfl, State.bay_reset, rfl, rfl, rfl, rfl, rfl, ?_,
    rfl, rfl, rfl, rfl, rfl, rfl, rfl, rfl, rfl, rfl, rfl, rfl, rfl, rfl, rfl, rfl, rfl, rfl, fun f => ⟨State.flags_reset f, ?_⟩,
    State.attentionLine_reset, rfl⟩
  · intro c
    simp [State.reset, Sampler.reset, Vector.get_eq_getElem]
  · rw [State.reset, Attention.reset, BitVec.getLsbD_allOnes]
    exact decide_eq_true f.isLt

/-- Settles O52: no record is in use, every bay is at rest, every list is empty and every count is 0. -/
theorem invariantsHoldAtReset : Obligations.InvariantsHoldAtReset := by
  refine ⟨listsExact_reset, baysExact_reset, grantsWithinTerms_reset, fun w h => (nomatch h), loadsExact_reset, iff_of_false (nomatch ·) ?_,
    ⟨(nomatch ·), (nomatch ·)⟩, ?_, ⟨by decide, by decide, fun _ => rfl⟩, ⟨rfl, rfl⟩, ⟨by decide, by decide, by decide, fun _ => rfl⟩,
    fun b => ?_, outputsExact_reset,
    fun b h => ?_, fun b => ?_, ?_⟩
  · rintro ⟨p, hp⟩
    rw [State.load_reset] at hp
    exact Nat.not_lt_zero _ hp
  · unfold Params.Legal
    decide
  · rw [State.bay_reset]
    rfl
  · rw [State.bay_reset] at h
    cases h
  · rw [State.bay_reset]
    exact ⟨by decide, by decide, fun _ => rfl, fun _ => ⟨rfl, rfl⟩⟩
  · exact ⟨List.Pairwise.nil, List.Pairwise.nil, List.Pairwise.nil, fun c h => (nomatch h), fun c h => (nomatch h)⟩

/-- Settles O8: HOLD.SET and HOLD.CLEAR by the operating state and the hold reasons, and RESUME by the two conditions it is taken under. -/
theorem holdAndResumeTaken : Obligations.HoldAndResumeTaken := by
  refine ⟨fun l r => by cases l <;> rfl, fun s => ⟨fun h => ?_, fun h ho => ?_, fun h ho => ?_, fun h => ?_, fun h ho hc => ?_, fun h ho => ?_⟩,
    fun s => ⟨fun h => ?_, fun ho hz => ?_⟩⟩
  · rw [exec_holdSet, if_pos h]
  · rw [exec_holdSet, h, if_neg Bool.false_ne_true, s.setHoldPort_other ho]
  · refine ⟨(s.setAllWaitReasons .hold).pool.records, s.record_setAllWaitReasons .hold, ?_⟩
    rw [exec_holdSet, h, if_neg Bool.false_ne_true, s.setHoldPort_running ho]
    rfl
  · rw [exec_holdClear, h, if_neg Bool.false_ne_true]
  · rw [exec_holdClear, if_pos h, s.clearHoldPort_hold ho, State.enterWork_eq]
    simp [hc]
  · rw [exec_holdClear, if_pos h, s.clearHoldPort_held ho]
  · rw [exec_resume, if_neg fun ⟨ho, hz⟩ => h.elim (· ho) hz]
  · rw [exec_resume, if_pos ⟨ho, hz⟩, State.enterWork_eq]

end

section
/-!
Handles and lookups (O14), the requests that create a record (O15, O32), RECLAIM (O17), and the period timer (O39).
-/
set_option Elab.async false

namespace Sys2Proof.Machine

/-! ### Commands on a record -/

theorem State.handleArg_of_handle (s : State) (hi lo : Byte) (f : RecIdx → State → State) (i : RecIdx) (h : s.handle i = u16 hi lo) :
    s.handleArg [hi, lo] (fun v t => t.withHandle v f) = f i s := s.withHandle_of_handle _ f i h

theorem State.handleArg_of_none (s : State) (hi lo : Byte) (f : RecIdx → State → State) (h : ∀ i, s.handle i ≠ u16 hi lo) :
    s.handleArg [hi, lo] (fun v t => t.withHandle v f) = s.refuse .badHandle := s.withHandle_of_none _ f h

theorem State.retire_of_none (s : State) (hi lo mode : Byte) (hm : mode.toNat ≤ 1) (h : ∀ i, s.handle i ≠ u16 hi lo) :
    s.retire [hi, lo, mode] = s.refuse .badHandle := by
  rw [State.retire, s.withHandle_of_none _ _ h, s.withHandle_of_none _ _ h]
  split
  · rfl
  · exact if_pos (by omega)

theorem exec_lookupHandle (s : State) (hi lo : Byte) (i : RecIdx) (h : s.handle i = u16 hi lo) :
    exec (.lookupHandle [hi, lo]) s = .next (s.lookup i) :=
  congrArg Host.Outcome.next (s.handleArg_of_handle hi lo _ i h)

theorem exec_reclaim_spent (s : State) (hi lo : Byte) (i : RecIdx) (h : s.handle i = u16 hi lo) (u : Terms) (c : EndCause) (f : Bool)
    (e : s.life i = .spent u c f) : exec (.reclaim [hi, lo]) s = .next (s.reclaimRecord i u.bay).ok :=
  congrArg Host.Outcome.next ((s.handleArg_of_handle hi lo _ i h).trans (by rw [e]))

theorem exec_reclaim_other (s : State) (hi lo : Byte) (i : RecIdx) (h : s.handle i = u16 hi lo) (e : ∀ u c f, s.life i ≠ .spent u c f) :
    exec (.reclaim [hi, lo]) s = .next (s.refuse .state) := by
  refine congrArg Host.Outcome.next ((s.handleArg_of_handle hi lo _ i h).trans ?_)
  split
  · rename_i u c f hl
    exact absurd hl (e u c f)
  · rfl

/-- Reclaiming leaves all but the pool, the bay and a window's flag (R22, R179). -/
theorem State.reclaimRecord_frame (s : State) (i : RecIdx) (b : BayIdx) : s.reclaimRecord i b = { s with
    pool := (s.reclaimRecord i b).pool, bays := (s.reclaimRecord i b).bays
    attention := { s.attention with flags := (s.reclaimRecord i b).attention.flags } } := by
  unfold State.reclaimRecord
  dsimp only
  generalize hv : ({ (s.modBay b _).setRecord i _ with pool := _ } : State) = v
  have h := (quiet_markStale v i).frame
  rw [State.alloc_markStale] at h
  rw [← hv] at h ⊢
  exact h

/-- A record that is not in use is STATE for the four commands on a live record (R4). -/
theorem exec_unused (s : State) (hi lo : Byte) (i : RecIdx) (h : s.handle i = u16 hi lo) (e : (s.life i).liveTerms? = none) :
    ∀ c ∈ [Instr.retireGraceful [hi, lo, 0], .retireImmediate [hi, lo, 1], .renew [hi, lo], .editOpen [hi, lo]],
      exec c s = .next (s.refuse .state) := by
  intro c hc
  simp only [List.mem_cons, List.not_mem_nil, or_false] at hc
  rcases hc with rfl | rfl | rfl | rfl
  · rw [exec_retireGraceful s hi lo i h, State.retireGraceful]
    cases hl : s.life i <;> simp_all [Life.liveTerms?]
  · rw [exec_retireImmediate s hi lo i h, State.retireImmediate]
    cases hl : s.life i <;> simp_all [Life.liveTerms?]
  · refine congrArg Host.Outcome.next ((s.handleArg_of_handle hi lo _ i h).trans ?_)
    cases hl : s.life i <;> simp_all [Life.liveTerms?]
  · refine congrArg Host.Outcome.next ((s.handleArg_of_handle hi lo _ i h).trans ?_)
    cases hl : s.life i <;> simp_all [Life.liveTerms?]

/-- A handle that names no record, or another life, is BAD_HANDLE for the six commands that take one (R4). -/
theorem exec_badHandle (s : State) (hi lo : Byte) (h : ∀ i, s.handle i ≠ u16 hi lo) :
    ∀ c ∈ [Instr.lookupHandle [hi, lo], .retireGraceful [hi, lo, 0], .retireImmediate [hi, lo, 1], .reclaim [hi, lo], .renew [hi, lo],
      .editOpen [hi, lo]], exec c s = .next (s.refuse .badHandle) := by
  intro c hc
  simp only [List.mem_cons, List.not_mem_nil, or_false] at hc
  rcases hc with rfl | rfl | rfl | rfl | rfl | rfl
  · exact congrArg Host.Outcome.next (s.handleArg_of_none hi lo _ h)
  · exact congrArg Host.Outcome.next (s.retire_of_none hi lo 0 (by decide) h)
  · exact congrArg Host.Outcome.next (s.retire_of_none hi lo 1 (by decide) h)
  · exact congrArg Host.Outcome.next (s.handleArg_of_none hi lo _ h)
  · exact congrArg Host.Outcome.next (s.handleArg_of_none hi lo _ h)
  · exact congrArg Host.Outcome.next (s.handleArg_of_none hi lo _ h)

theorem exec_lookupBay (s : State) (b : Byte) (hb : b.toNat < 16) :
    ((s.bay ⟨b.toNat, hb⟩).record = none → exec (.lookupBay [b]) s = .next (s.refuse .noRecord)) ∧
      ∀ i, (s.bay ⟨b.toNat, hb⟩).record = some i → exec (.lookupBay [b]) s = .next (s.lookup i) := by
  refine ⟨fun h => congrArg Host.Outcome.next ((dif_pos hb).trans ?_), fun i h => congrArg Host.Outcome.next ((dif_pos hb).trans ?_)⟩
  · dsimp only
    rw [h]
  · dsimp only
    rw [h]

/-! ### Requests -/

/-- A request in range is taken, with the terms of the record it creates (R11, R13). -/
theorem requestOf?_inRange (cls mask value : Byte) (requested floor lease : Nat)
    (h : requestInRange cls.toNat requested floor mask.toNat value.toNat) :
    ∃ r, requestOf? cls.toNat requested floor lease mask.toNat value.toNat = some r ∧
      ∀ b o, r.terms b o = createdTerms b o cls.toNat requested floor lease mask.toNat value.toNat := by
  obtain ⟨hc, h1, h2, h3, hp⟩ := h
  have hc : cls.toNat < 4 := by omega
  refine ⟨_, (dif_pos hc).trans (if_pos ⟨h1, h2, h3, (patternOk_iff mask value).mpr hp⟩), fun b o => ?_⟩
  have e : (⟨cls.toNat, hc⟩ : Fin 4) = Fin.ofNat 4 cls.toNat := Fin.ext (Nat.mod_eq_of_lt hc).symm
  simp only [Request.terms, createdTerms, e]

/-- A request with a field out of range is not taken (R11). -/
theorem requestOf?_outOfRange (cls mask value : Byte) (requested floor lease : Nat)
    (h : ¬ requestInRange cls.toNat requested floor mask.toNat value.toNat) :
    requestOf? cls.toNat requested floor lease mask.toNat value.toNat = none := by
  unfold requestOf?
  split
  · rename_i hc
    refine if_neg fun ⟨h1, h2, h3, hp⟩ => h ⟨by omega, h1, h2, h3, (patternOk_iff mask value).mp hp⟩
  · rfl

theorem exec_alloc (s : State) (b cls rh rl fh fl lease mask value : Byte) (hb : b.toNat < 16) (r : Request)
    (h : requestOf? cls.toNat (u16 rh rl) (u16 fh fl) lease.toNat mask.toNat value.toNat = some r) :
    exec (.alloc [b, cls, rh, rl, fh, fl, lease, mask, value]) s = .next (s.allocFor ⟨b.toNat, hb⟩ r) :=
  congrArg Host.Outcome.next ((dif_pos hb).trans (by rw [h]))

theorem exec_alloc_badArg (s : State) (b cls rh rl fh fl lease mask value : Byte)
    (h : 15 < b.toNat ∨ ¬ requestInRange cls.toNat (u16 rh rl) (u16 fh fl) mask.toNat value.toNat) :
    exec (.alloc [b, cls, rh, rl, fh, fl, lease, mask, value]) s = .next (s.refuse .badArg) := by
  refine congrArg Host.Outcome.next ?_
  dsimp only
  split
  · rw [requestOf?_outOfRange _ _ _ _ _ _ (h.resolve_left (by omega))]
  · rfl

/-- A bay's ALLOC by its entry and the free list (R11). -/
theorem State.allocFor_taken (s : State) (b : BayIdx) (r : Request) (h : (s.bay b).record ≠ none) : s.allocFor b r = s.refuse .bayTaken :=
  if_pos (Option.isSome_iff_ne_none.mpr h)

theorem State.allocFor_empty (s : State) (b : BayIdx) (r : Request) (h : (s.bay b).record = none) (hf : s.pool.freeList = []) :
    s.allocFor b r = (s.raise flagPoolFull).refuse .noRecord := by
  simp only [State.allocFor, h, hf, Option.isSome_none, Bool.false_eq_true, if_false]

theorem State.allocFor_creates (s : State) (b : BayIdx) (r : Request) (i : RecIdx) (rest : List RecIdx) (h : (s.bay b).record = none)
    (hf : s.pool.freeList = i :: rest) :
    s.allocFor b r = (s.create i rest (r.terms b .port)).answer .ok (be16 (s.handle i)) := by
  simp only [State.allocFor, h, hf, Option.isSome_none, Bool.false_eq_true, if_false]

theorem exec_ask (s : State) (cls lease mask value : Byte) (requested floor : Half) (hp : s.link.phase ≠ .none) (r : Request)
    (h : askRequest cls requested floor lease mask value = some r) :
    exec (.ask cls requested floor lease mask value) s = .next ((s.endVisit Bay.reported).askFor s.link.position r) :=
  congrArg Host.Outcome.next ((s.report_visit _ hp).trans (by rw [h]))

theorem exec_ask_badArg (s : State) (cls lease mask value : Byte) (requested floor : Half) (hp : s.link.phase ≠ .none)
    (h : askRequest cls requested floor lease mask value = none) :
    exec (.ask cls requested floor lease mask value) s = .next (answered (s.endVisit Bay.reported) s.link.position .badArg noHandle) :=
  congrArg Host.Outcome.next ((s.report_visit _ hp).trans (by rw [h]; rfl))

/-- A bay's ASK outside TRIP, by its entry and the free list (R12). -/
theorem State.askFor_already (s : State) (b : BayIdx) (r : Request) (i : RecIdx) (ht : s.alloc.opState ≠ .trip)
    (h : (s.bay b).record = some i) : s.askFor b r = answered s b .already (s.handle i) := by
  simp only [State.askFor, if_neg ht, h, State.writeAnswer_eq]

theorem State.askFor_empty (s : State) (b : BayIdx) (r : Request) (ht : s.alloc.opState ≠ .trip) (h : (s.bay b).record = none)
    (hf : s.pool.freeList = []) : s.askFor b r = answered (s.raise flagPoolFull) b .noRecord noHandle := by
  simp only [State.askFor, if_neg ht, h, hf, State.writeAnswer_eq]

theorem State.askFor_creates (s : State) (b : BayIdx) (r : Request) (i : RecIdx) (rest : List RecIdx) (ht : s.alloc.opState ≠ .trip)
    (h : (s.bay b).record = none) (hf : s.pool.freeList = i :: rest) :
    s.askFor b r = answered (s.create i rest (r.terms b .link)) b .accepted (s.handle i) := by
  simp only [State.askFor, if_neg ht, h, hf, State.writeAnswer_eq]

theorem State.record_endVisit (s : State) (f : Bay → Bay) (hf : (f (s.bay s.link.position)).record = (s.bay s.link.position).record) :
    ((s.endVisit f).bay s.link.position).record = (s.bay s.link.position).record := by
  have e : (s.endVisit f).bay s.link.position = f (s.bay s.link.position) := s.bay_modBay_self _ f
  rw [e, hf]

/-! ### The period timer -/

theorem Finds.eq {s : State} {found : Vector (Option Nat) 16} (h : Finds s found) : found = Vector.ofFn s.heldHandle := by
  refine Vector.ext fun k hk => ?_
  rw [Vector.getElem_ofFn]
  refine Option.ext fun v => ?_
  have hv := h ⟨k, hk⟩ v
  rw [Vector.get_eq_getElem] at hv
  refine hv.trans ((s.heldHandle_eq_some ⟨k, hk⟩ v).trans ?_).symm
  simp only [eq_comm]

theorem exec_millisecondTick_idle (s : State) (h : ¬ (s.timer.running = true ∧ s.timer.ms + 1 < s.params.periodLength)) :
    exec .millisecondTick s = .next s := congrArg Host.Outcome.next (if_neg h)

theorem exec_periodBoundary_idle (s : State) (later : List BoundaryPart)
    (h : ¬ (s.timer.running = true ∧ s.timer.ms + 1 = s.params.periodLength)) : exec (.periodBoundary later) s = .next s :=
  congrArg Host.Outcome.next (if_neg h)

theorem exec_periodBoundary (s : State) (later : List BoundaryPart) (hr : s.timer.running = true)
    (hm : s.timer.ms + 1 = s.params.periodLength) (ho : s.timer.outstanding = []) :
    exec (.periodBoundary later) s = .next (s.boundary later) := by
  refine congrArg Host.Outcome.next ((if_pos ⟨hr, hm⟩).trans ?_)
  rw [finishBoundary_eq s ho]

/-- A boundary that leaves every part for later moves the timer alone (log 3). -/
theorem State.boundary_all (s : State) :
    s.boundary boundaryParts = { s with timer := s.timer.advance boundaryParts (Vector.ofFn s.heldHandle) } := by
  have h : (boundaryParts.filter fun p => !boundaryParts.contains p) = [] := List.filter_eq_nil_iff.mpr fun p hp => by simpa using hp
  rw [State.boundary, h]
  rfl

theorem Timer.advance_all (m : Timer) (found : Vector (Option Nat) 16) (h : m.running = true) : m.advance boundaryParts found =
    { running := true, ms := 0, position := m.position + 1, outstanding := boundaryParts, found := found } := by
  have e : (boundaryParts.filter fun p => boundaryParts.contains p) = boundaryParts := List.filter_eq_self.mpr fun p hp => by simpa using hp
  rw [Timer.advance, e, ← h]

end Sys2Proof.Machine

open Sys2Proof Sys2Proof.Machine

/-- Settles O14: resolution, the refusals by the record's state, and the image of each of the five states. -/
theorem handlesResolved : Obligations.HandlesResolved := by
  refine ⟨fun s hi lo => ⟨fun i => s.resolve_iff _ i, fun h => exec_badHandle s hi lo fun i e => h i e.symm⟩,
    fun s hi lo i h => ⟨fun e c hc => ?_, fun u c f e => exec_unused s hi lo i h (by rw [e]; rfl)⟩, fun s i hi lo b => ?_, rfl, rfl, rfl⟩
  · by_cases hr : c = .reclaim [hi, lo]
    · rw [hr]
      exact exec_reclaim_other s hi lo i h fun u c f => by simp [e]
    · refine exec_unused s hi lo i h (by rw [e]; rfl) c ?_
      simp only [List.mem_cons, List.not_mem_nil, or_false, hr, false_or] at hc ⊢
      exact hc
  · refine ⟨exec_lookupHandle s hi lo i, fun hb => congrArg Host.Outcome.next (dif_neg (by omega)),
      fun hb => ⟨(exec_lookupBay s b hb).1, (exec_lookupBay s b hb).2 i⟩, fun e => ?_, fun u r e => ?_, fun u g e => ?_, fun u a c n e => ?_,
      fun u c f e => ?_⟩
    · rw [e]
      rfl
    · rw [e]
      rfl
    · rw [e]
      obtain ⟨active, staged, leaseLeft, taperState, strikes, strikeWindowLeft⟩ := g
      cases leaseLeft <;> cases taperState <;> rfl
    · rw [e]
      rfl
    · rw [e]
      cases f <;> rfl

/-- Settles O15: the range, the bay's entry and the free list, in this order. -/
theorem allocTaken : Obligations.AllocTaken := by
  intro s b cls rh rl fh fl lease mask value
  refine ⟨exec_alloc_badArg s b cls rh rl fh fl lease mask value, fun hb hr => ?_⟩
  obtain ⟨r, hreq, hterms⟩ := requestOf?_inRange cls mask value (u16 rh rl) (u16 fh fl) lease.toNat hr
  have hexec := exec_alloc s b cls rh rl fh fl lease mask value hb r hreq
  refine ⟨fun h => ?_, fun h hf => ?_, fun i rest h hf => ?_⟩
  · rw [hexec, s.allocFor_taken _ r h]
  · rw [hexec, s.allocFor_empty _ r h hf]
    rfl
  · refine ⟨s.create i rest (r.terms ⟨b.toNat, hb⟩ .port), ?_, by rw [hexec, s.allocFor_creates _ r i rest h hf]⟩
    rw [← hterms]
    exact s.creates i rest (r.terms ⟨b.toNat, hb⟩ .port)

/-- Settles O17: the record, the free list, the bay and the window, each by what reclaiming does to it. -/
theorem reclaimTaken : Obligations.ReclaimTaken := by
  intro s hi lo i h
  refine ⟨exec_reclaim_other s hi lo i h, fun u c f e => ⟨s.reclaimRecord i u.bay, exec_reclaim_spent s hi lo i h u c f e, ?_, ?_,
    fun j hj => ?_, s.freeList_reclaimRecord i u.bay, ?_, fun b hb => ?_, s.edit_reclaimRecord i u.bay, fun f => ?_, ?_⟩⟩
  · rw [State.life_reclaimRecord, if_pos rfl]
  · rw [State.record_reclaimRecord, if_pos rfl, Fin.val_add]
    rfl
  · rw [State.record_reclaimRecord, if_neg hj]
  · rw [State.bay_reclaimRecord, if_pos rfl]
  · rw [State.bay_reclaimRecord, if_neg hb]
  · exact get_flags_markStale _ i f
  · exact s.reclaimRecord_frame i u.bay

/-- Settles O32: the fields, TRIP, the bay's entry and the free list, in this order. -/
theorem askTaken : Obligations.AskTaken := by
  intro s cls lease mask value requested floor hp b v good taken
  have hrec : (v.bay b).record = (s.bay b).record := s.record_endVisit Bay.reported rfl
  by_cases hg : good
  · obtain ⟨r, hreq, hterms⟩ := requestOf?_inRange cls mask value requested.toNat floor.toNat lease.toNat hg.1
    have hexec : taken = _ := exec_ask s cls lease mask value requested floor hp r ((if_neg hg.2).trans hreq)
    refine ⟨fun h => absurd hg h, fun _ ht => ?_, fun _ ht i h => ?_, fun _ ht h hf => ?_, fun _ ht h i rest hf => ?_⟩
    · rw [hexec]
      exact congrArg Host.Outcome.next (if_pos ht)
    · exact hexec.trans (congrArg Host.Outcome.next (State.askFor_already v b r i ht (hrec.trans h)))
    · exact hexec.trans (congrArg Host.Outcome.next (State.askFor_empty v b r ht (hrec.trans h) hf))
    · refine ⟨v.create i rest (r.terms b .link), ?_, ?_⟩
      · rw [← hterms]
        exact v.creates i rest (r.terms b .link)
      · exact hexec.trans (congrArg Host.Outcome.next (State.askFor_creates v b r i rest ht (hrec.trans h) hf))
  · have hreq : askRequest cls requested floor lease mask value = none := by
      by_cases hl : lease.toNat = 0
      · exact if_pos hl
      · exact (if_neg hl).trans (requestOf?_outOfRange _ _ _ _ _ _ fun h => hg ⟨h, hl⟩)
    exact ⟨fun _ => exec_ask_badArg s cls lease mask value requested floor hp hreq, fun h => absurd h hg, fun h => absurd h hg,
      fun h => absurd h hg, fun h => absurd h hg⟩

/-- Settles O39: the tick below the period length, the boundary at it, and neither with the timer stopped. -/
theorem timerCounts : Obligations.TimerCounts := by
  intro s later found ho hf
  refine ⟨fun hr hm => ⟨?_, ?_⟩, fun hr hm => ⟨?_, ?_, ?_⟩, fun hr => ⟨?_, ?_⟩⟩
  · rw [exec_millisecondTick s hr hm, finishBoundary_eq s ho]
  · exact exec_periodBoundary_idle s later fun h => by omega
  · exact exec_millisecondTick_idle s fun h => by omega
  · rw [exec_periodBoundary s _ hr hm ho, s.boundary_all, Timer.advance_all _ _ hr, hf.eq]
  · refine ⟨_, exec_periodBoundary s later hr hm ho, ?_⟩
    rw [timer_boundary, ← hf.eq]
    exact ⟨hr, rfl, rfl, rfl, rfl⟩
  · exact exec_millisecondTick_idle s fun h => by simp [hr] at h
  · exact exec_periodBoundary_idle s later fun h => by simp [hr] at h

end

section
/-!
RENEW from the port (O18), RENEW and RELEASE from a bay (O35), and the limit of an entry and the signal period (O41).
-/
set_option Elab.async false

namespace Sys2Proof.Machine

/-! ### RENEW and RELEASE -/

/-- A record whose terms have no lease has none to reload (R63, R64). -/
theorem State.reloadLease_unleased (s : State) (i : RecIdx) (u : Terms) (g : Grant) (h : s.life i = .granted u g) (hl : u.leaseLength = 0) :
    s.reloadLease i = s := by
  simp only [State.reloadLease, h, if_pos hl]

theorem State.reloadLease_leased (s : State) (i : RecIdx) (u : Terms) (g : Grant) (h : s.life i = .granted u g) (hl : u.leaseLength ≠ 0) :
    s.reloadLease i = s.setLife i (.granted u { g with leaseLeft := some u.leaseLength }) := by
  simp only [State.reloadLease, h, if_neg hl]

theorem State.reloadLease_waiting (s : State) (i : RecIdx) (u : Terms) (r : WaitReason) (h : s.life i = .waiting u r) :
    s.reloadLease i = s := by
  simp only [State.reloadLease, h]

theorem exec_renew_waiting (s : State) (hi lo : Byte) (i : RecIdx) (h : s.handle i = u16 hi lo) (u : Terms) (r : WaitReason)
    (e : s.life i = .waiting u r) : exec (.renew [hi, lo]) s = .next s.ok :=
  congrArg Host.Outcome.next ((s.handleArg_of_handle hi lo _ i h).trans (by rw [e]))

theorem exec_renew_granted (s : State) (hi lo : Byte) (i : RecIdx) (h : s.handle i = u16 hi lo) (u : Terms) (g : Grant)
    (e : s.life i = .granted u g) : exec (.renew [hi, lo]) s = .next (s.reloadLease i).ok :=
  congrArg Host.Outcome.next ((s.handleArg_of_handle hi lo _ i h).trans (by rw [e]))

theorem exec_renew_retiring (s : State) (hi lo : Byte) (i : RecIdx) (h : s.handle i = u16 hi lo) (u : Terms) (a n : Nat) (c : EndCause)
    (e : s.life i = .retiring u a c n) : exec (.renew [hi, lo]) s = .next (s.refuse .state) :=
  congrArg Host.Outcome.next ((s.handleArg_of_handle hi lo _ i h).trans (by rw [e]))

/-- A link request that names a live record of the reporting bay is decided by its own rule (R5, R170). -/
theorem State.report_live (s : State) (v : Nat) (f : RecIdx → State → State) (i : RecIdx) (u : Terms) (hp : s.link.phase ≠ .none)
    (hi : s.handle i = v) (hu : (s.life i).liveTerms? = some u) (hb : u.bay = s.link.position) :
    (s.report fun b t => t.withLinkHandle b v f) = f i (s.endVisit Bay.reported) :=
  (s.report_visit _ hp).trans
    (State.withLinkHandle_ok _ _ _ f i (((s.endVisit Bay.reported).resolveLink_some _ v i hi).2.2.2 u hu hb))

theorem exec_linkRenew_retiring (s : State) (h : Half) (i : RecIdx) (u : Terms) (a n : Nat) (c : EndCause) (hp : s.link.phase ≠ .none)
    (hi : s.handle i = h.toNat) (hb : u.bay = s.link.position) (e : s.life i = .retiring u a c n) :
    exec (.linkRenew h) s = .next (answered (s.endVisit Bay.reported) s.link.position .expired h.toNat) := by
  refine congrArg Host.Outcome.next ((s.report_live h.toNat _ i u hp hi (by rw [e]; rfl) hb).trans ?_)
  rw [show (s.endVisit Bay.reported).life i = _ from e]
  rfl

/-- A RENEW of a record that waits or is granted reloads what lease it has (R64). -/
theorem exec_linkRenew_reloads (s : State) (h : Half) (i : RecIdx) (u : Terms) (hp : s.link.phase ≠ .none) (hi : s.handle i = h.toNat)
    (hb : u.bay = s.link.position) (e : (∃ r, s.life i = .waiting u r) ∨ ∃ g, s.life i = .granted u g) :
    exec (.linkRenew h) s = .next (answered ((s.endVisit Bay.reported).reloadLease i) s.link.position .accepted h.toNat) := by
  have hu : (s.life i).liveTerms? = some u := by
    obtain ⟨r, e⟩ | ⟨g, e⟩ := e <;> rw [e] <;> rfl
  refine congrArg Host.Outcome.next ((s.report_live h.toNat _ i u hp hi hu hb).trans ?_)
  obtain ⟨r, e⟩ | ⟨g, e⟩ := e
  · rw [show (s.endVisit Bay.reported).life i = _ from e]
    rfl
  · rw [show (s.endVisit Bay.reported).life i = _ from e]
    rfl

theorem exec_release_waiting (s : State) (h : Half) (i : RecIdx) (u : Terms) (r : WaitReason) (hp : s.link.phase ≠ .none)
    (hi : s.handle i = h.toNat) (hb : u.bay = s.link.position) (e : s.life i = .waiting u r) :
    exec (.release h) s =
      .next (answered ((s.endVisit Bay.reported).enterSpent i .withdrawn false) s.link.position .accepted h.toNat) := by
  refine congrArg Host.Outcome.next ((s.report_live h.toNat _ i u hp hi (by rw [e]; rfl) hb).trans ?_)
  rw [show (s.endVisit Bay.reported).life i = _ from e]
  rfl

theorem exec_release_granted (s : State) (h : Half) (i : RecIdx) (u : Terms) (g : Grant) (hp : s.link.phase ≠ .none)
    (hi : s.handle i = h.toNat) (hb : u.bay = s.link.position) (e : s.life i = .granted u g) :
    exec (.release h) s =
      .next (answered ((s.endVisit Bay.reported).enterRetiring i .released) s.link.position .accepted h.toNat) := by
  refine congrArg Host.Outcome.next ((s.report_live h.toNat _ i u hp hi (by rw [e]; rfl) hb).trans ?_)
  rw [show (s.endVisit Bay.reported).life i = _ from e]
  rfl

theorem exec_release_retiring (s : State) (h : Half) (i : RecIdx) (u : Terms) (a n : Nat) (c : EndCause) (hp : s.link.phase ≠ .none)
    (hi : s.handle i = h.toNat) (hb : u.bay = s.link.position) (e : s.life i = .retiring u a c n) :
    exec (.release h) s = .next (answered (s.endVisit Bay.reported) s.link.position .accepted h.toNat) := by
  refine congrArg Host.Outcome.next ((s.report_live h.toNat _ i u hp hi (by rw [e]; rfl) hb).trans ?_)
  rw [show (s.endVisit Bay.reported).life i = _ from e]
  rfl

/-! ### The limit of an entry, and the signal period -/

/-- A record is on where the position agrees with its value under its mask (R1). -/
theorem Terms.onAt_iff (u : Terms) (p : Position) : u.onAt p = true ↔ BitVec.ofNat 6 p.val &&& u.mask = u.value :=
  beq_iff_eq

theorem Life.limitAt_off (u : Terms) (g : Grant) (p : Position) (h : u.onAt p = false) : (Life.granted u g).limitAt p = 0 := by
  simp [Life.limitAt, h]

theorem Life.limitAt_untapered (u : Terms) (g : Grant) (p : Position) (h : u.onAt p = true) (ht : g.taperState = none) :
    (Life.granted u g).limitAt p = g.active := by
  simp [Life.limitAt, h, stepCurrent, ht]

theorem Life.limitAt_tapered (u : Terms) (g : Grant) (p : Position) (ts : TaperState) (st : TaperStep) (h : u.onAt p = true)
    (ht : g.taperState = some ts) (hs : u.taper[ts.step]? = some st) : (Life.granted u g).limitAt p = min g.active st.current := by
  simp [Life.limitAt, h, stepCurrent, ht, hs]

/-- The remainder at a millisecond of the internal oscillator (R152). -/
theorem nextRemainder_eq (n : Nat) : nextRemainder n = if 1000 ≤ n + 768 then n + 768 - 1000 else n + 768 := by
  simp [nextRemainder, longMillisecond]

theorem Clock.millisecond_eq (c : Clock) : c.millisecond = { c with
    windowFresh := false
    msRemainder := if c.state = .reference then c.msRemainder
      else if 1000 ≤ c.msRemainder + 768 then c.msRemainder + 768 - 1000 else c.msRemainder + 768 } := by
  rw [Clock.millisecond, nextRemainder_eq]

theorem exec_signalPeriodStart (s : State) : exec .signalPeriodStart s =
    .next { s with bays := (s.modBays fun y => { y with inEffectDuty := y.stagedDuty }).bays, clock := s.clock.millisecond } := rfl

theorem Bay.limitLine_iff (y : Bay) (us : Fin 1000) : y.limitLine us = true ↔ y.enable = .closed ∧ us.val < y.inEffectDuty := by
  simp [Bay.limitLine]

end Sys2Proof.Machine

open Sys2Proof Sys2Proof.Machine

/-- Settles O18: the handle is resolved, and the record's state decides. -/
theorem renewTaken : Obligations.RenewTaken := by
  intro s hi lo
  refine ⟨fun h => exec_badHandle s hi lo h _ (by simp), fun i h => ⟨fun e => ?_, fun u c f e => ?_, exec_renew_waiting s hi lo i h,
    fun u g e hl => ?_, fun u g e hl => ?_, fun u a c n e => exec_renew_retiring s hi lo i h u a n c e⟩⟩
  · exact exec_unused s hi lo i h (by rw [e]; rfl) _ (by simp)
  · exact exec_unused s hi lo i h (by rw [e]; rfl) _ (by simp)
  · rw [exec_renew_granted s hi lo i h u g e, s.reloadLease_unleased i u g e hl]
  · rw [exec_renew_granted s hi lo i h u g e, s.reloadLease_leased i u g e hl]

/-- Settles O35: the record is live and of the reporting bay, so its state decides. -/
theorem linkRenewAndReleaseTaken : Obligations.LinkRenewAndReleaseTaken := by
  refine ⟨fun s h i u hp hi hb => ⟨fun r e => ?_, fun g e hl => ?_, fun g e hl => ?_, fun a c n e => ?_⟩,
    fun s h i u hp hi hb => ⟨fun r e => ⟨_, ?_, exec_release_waiting s h i u r hp hi hb e⟩,
      fun g e => ⟨_, ?_, exec_release_granted s h i u g hp hi hb e⟩, fun a c n e => exec_release_retiring s h i u a n c hp hi hb e⟩⟩
  · rw [exec_linkRenew_reloads s h i u hp hi hb (.inl ⟨r, e⟩), (s.endVisit Bay.reported).reloadLease_waiting i u r e]
  · rw [exec_linkRenew_reloads s h i u hp hi hb (.inr ⟨g, e⟩), (s.endVisit Bay.reported).reloadLease_unleased i u g e hl]
  · rw [exec_linkRenew_reloads s h i u hp hi hb (.inr ⟨g, e⟩), (s.endVisit Bay.reported).reloadLease_leased i u g e hl]
  · exact exec_linkRenew_retiring s h i u a n c hp hi hb e
  · exact (s.endVisit Bay.reported).entersSpent i .withdrawn false u (by rw [show (s.endVisit Bay.reported).life i = _ from e]; rfl)
  · exact (s.endVisit Bay.reported).entersRetiring i .released u g e

/-- Settles O41: the limit by the record's state and pattern, and the three things a signal period is made of. -/
theorem boundaryLimitsAndSignalPeriod : Obligations.BoundaryLimitsAndSignalPeriod := by
  refine ⟨fun u g p a n c f r => ⟨Life.limitAt_off u g p, Life.limitAt_untapered u g p, fun ts st => Life.limitAt_tapered u g p ts st, rfl, rfl,
    rfl, rfl, u.onAt_iff p⟩, fun s => ⟨⟨(s.modBays fun y => { y with inEffectDuty := y.stagedDuty }).bays, s.bay_modBays _, ?_⟩,
    Bay.limitLine_iff⟩⟩
  rw [exec_signalPeriodStart, Clock.millisecond_eq]

end

section
/-!
The parameters and the Period Timer: every command but seven leaves the parameters, STANDBY and the timer's count alone (`Paced`), and the
seven, each taken by itself, keep the parameters legal and the timer in line with the operating state (O57).
-/
set_option Elab.async false

namespace Sys2Proof.Machine

/-! ### What most commands leave of the timer -/

/-- The parameters stand, STANDBY is neither entered nor left, and of the timer only outstanding parts of a boundary are taken. -/
structure Paced (s t : State) : Prop where
  params : t.params = s.params
  standby : t.alloc.opState = .standby ↔ s.alloc.opState = .standby
  timer : t.timer = { s.timer with outstanding := t.timer.outstanding }
  outstanding : t.timer.outstanding ⊆ s.timer.outstanding

theorem Paced.refl (s : State) : Paced s s := ⟨rfl, Iff.rfl, rfl, List.Subset.refl _⟩

theorem Paced.trans {s t u : State} (h : Paced s t) (k : Paced t u) : Paced s u where
  params := k.params.trans h.params
  standby := k.standby.trans h.standby
  timer := by rw [k.timer, h.timer]
  outstanding := List.Subset.trans k.outstanding h.outstanding

/-- A frame from its fields, most of which hold by definition. -/
theorem Paced.of {s t : State} (params : t.params = s.params := by rfl)
    (standby : t.alloc.opState = .standby ↔ s.alloc.opState = .standby := by exact Iff.rfl) (timer : t.timer = s.timer := by rfl) :
    Paced s t :=
  ⟨params, standby, by rw [timer], by rw [timer]; exact List.Subset.refl _⟩

theorem Quiet.paced {s t : State} (h : Quiet s t) : Paced s t := .of h.params (by rw [h.opState]) h.timer

theorem Paced.foldl {α : Type} {f : State → α → State} (hf : ∀ s a, Paced s (f s a)) : ∀ (l : List α) (s : State), Paced s (l.foldl f s)
  | [], s => .refl s
  | a :: l, s => (hf s a).trans (Paced.foldl hf l (f s a))

/-! ### Arguments and answers -/

theorem paced_answer (s : State) (c : ReplyCode) (l : List Byte) : Paced s (s.answer c l) := .of

theorem paced_refuse (s : State) (c : ReplyCode) : Paced s (s.refuse c) := .of

theorem Paced.ok {s t : State} (h : Paced s t) : Paced s t.ok := h.trans .of

theorem paced_modBay (s : State) (b : BayIdx) (f : Bay → Bay) : Paced s (s.modBay b f) := .of

theorem paced_noArgs (s : State) (args : List Byte) (f : State → State) (h : Paced s (f s)) : Paced s (s.noArgs args f) := by
  unfold State.noArgs
  split
  · exact h
  · exact paced_refuse s _

theorem paced_withHandle (s : State) (v : Nat) (f : RecIdx → State → State) (h : ∀ i, Paced s (f i s)) : Paced s (s.withHandle v f) := by
  unfold State.withHandle
  split
  · exact h _
  · exact paced_refuse s _

theorem paced_handleArg (s : State) (args : List Byte) (f : Nat → State → State) (h : ∀ v, Paced s (f v s)) :
    Paced s (s.handleArg args f) := by
  unfold State.handleArg
  split
  · exact h _
  · exact paced_refuse s _

theorem paced_bayArg (s : State) (args : List Byte) (f : BayIdx → State → State) (h : ∀ b, Paced s (f b s)) :
    Paced s (s.bayArg args f) := by
  unfold State.bayArg
  split
  · split
    · exact h _
    · exact paced_refuse s _
  · exact paced_refuse s _

theorem paced_channelArg (s : State) (args : List Byte) (f : Channel → State → State) (h : ∀ c, Paced s (f c s)) :
    Paced s (s.channelArg args f) := by
  unfold State.channelArg
  split
  · split
    · exact h _
    · exact paced_refuse s _
  · exact paced_refuse s _

theorem paced_flagMaskArg (s : State) (args : List Byte) (f : Nat → State → State) (h : ∀ m, Paced s (f m s)) :
    Paced s (s.flagMaskArg args f) := by
  unfold State.flagMaskArg
  split
  · exact h _
  · exact paced_refuse s _

/-! ### Ceilings, zones and the operating state -/

theorem paced_setEffective (s : State) (n : Nat) : Paced s (s.setEffective n) :=
  .of (untouched_setEffective s n).params (by rw [(effCeiling_setEffective s n).2]) (untouched_setEffective s n).timer

/-- TRIP is not entered from STANDBY (R141). -/
theorem paced_enterTrip (s : State) (h : s.alloc.opState ≠ .standby) : Paced s s.enterTrip := by
  have ht : s.enterTrip.alloc.opState = .trip := by rw [s.entersTrip.frame]
  refine .of (untouched_enterTrip s).params (iff_of_false ?_ h) (untouched_enterTrip s).timer
  rw [ht]
  exact nofun

theorem paced_takeZone (s : State) (z : Zone) : Paced s (s.takeZone z) := by
  unfold State.takeZone
  split
  · rename_i h
    refine .trans .of (paced_enterTrip { s with alloc := { s.alloc with effCeiling := effectiveCeiling s.alloc.ceiling z } } fun e => ?_)
    have e : s.alloc.opState = .standby := e
    rw [e] at h
    exact h.2.elim nofun nofun
  · exact paced_setEffective _ _

theorem paced_deriveZone (s : State) : Paced s s.deriveZone := by
  unfold State.deriveZone
  dsimp only
  split
  · exact .refl s
  · exact .trans .of (paced_takeZone _ _)

theorem State.opState_enterWork (s : State) : s.enterWork.alloc.opState ≠ .standby := by
  rw [State.enterWork_eq]
  dsimp only
  split <;> exact nofun

theorem paced_enterWork (s : State) (h : s.alloc.opState ≠ .standby) : Paced s s.enterWork :=
  .of (by rw [State.enterWork_eq]) (iff_of_false s.opState_enterWork h) (by rw [State.enterWork_eq])

theorem paced_holdIfRunning (s : State) : Paced s s.holdIfRunning := by
  unfold State.holdIfRunning
  split
  · rename_i h
    have hw : Paced s { s with alloc := { s.alloc with opState := .hold } } := .of (standby := iff_of_false nofun (by rw [h]; exact nofun))
    exact hw.trans (quiet_setAllWaitReasons _ _).paced
  · exact .refl s

theorem paced_runIfReleased (s : State) : Paced s s.runIfReleased := by
  unfold State.runIfReleased
  split
  · rename_i h
    refine paced_enterWork s ?_
    rw [h]
    exact nofun
  · exact .refl s

theorem paced_setHoldPort (s : State) : Paced s s.setHoldPort := .trans .of (paced_holdIfRunning _)
theorem paced_clearHoldPort (s : State) : Paced s s.clearHoldPort := .trans .of (paced_runIfReleased _)
theorem paced_setHoldClock (s : State) : Paced s s.setHoldClock := .trans .of (paced_holdIfRunning _)
theorem paced_clearHoldClock (s : State) : Paced s s.clearHoldClock := .trans .of (paced_runIfReleased _)

/-! ### The Host Port -/

theorem paced_create (s : State) (i : RecIdx) (rest : List RecIdx) (u : Terms) : Paced s (s.create i rest u) := by
  have h := (s.creates i rest u).frame
  exact .of (by rw [h]) (by rw [h]) (by rw [h])

theorem paced_allocFor (s : State) (b : BayIdx) (r : Request) : Paced s (s.allocFor b r) := by
  unfold State.allocFor
  split
  · exact paced_refuse s _
  · split
    · exact .of
    · exact (paced_create s _ _ _).trans (paced_answer _ _ _)

theorem paced_retire (s : State) (args : List Byte) : Paced s (s.retire args) := by
  have hs : ∀ i c, Paced s (s.enterSpent i c false).ok := fun i c => (quiet_enterSpent s i c false).paced.ok
  have hg : ∀ i, Paced s (s.retireGraceful i) := fun i => by
    unfold State.retireGraceful
    split
    · exact hs _ _
    · exact (quiet_enterRetiring s _ _).paced.ok
    · exact (Paced.refl s).ok
    · exact paced_refuse s _
    · exact paced_refuse s _
  have hi : ∀ i, Paced s (s.retireImmediate i) := fun i => by
    unfold State.retireImmediate
    split
    · exact hs _ _
    · exact hs _ _
    · exact hs _ _
    · exact paced_refuse s _
    · exact paced_refuse s _
  unfold State.retire
  split
  · split
    · exact paced_withHandle s _ _ hg
    · split
      · exact paced_withHandle s _ _ hi
      · exact paced_refuse s _
  · exact paced_refuse s _

theorem paced_reclaimRecord (s : State) (i : RecIdx) (b : BayIdx) : Paced s (s.reclaimRecord i b) := by
  have h := s.reclaimRecord_frame i b
  exact .of (by rw [h]) (by rw [h]) (by rw [h])

theorem paced_setGates (s : State) (mask : Nat) (g : Gate) : Paced s (s.setGates mask g) := by
  unfold State.setGates
  dsimp only
  split
  · exact .trans .of (quiet_trigger _).paced
  · exact .of

theorem paced_openWindow (s : State) (i : RecIdx) (t : Terms) : Paced s (s.openWindow i t) := by
  unfold State.openWindow
  split
  · exact paced_refuse s _
  · exact .of

theorem paced_putWindow (s : State) (f : EditWindow → EditWindow) : Paced s (s.putWindow f) := by
  unfold State.putWindow
  split
  · exact .of
  · exact paced_refuse s _

theorem paced_closeWindow (s : State) : Paced s s.closeWindow := .of

theorem paced_commitWindow (s : State) (w : EditWindow) : Paced s (s.commitWindow w) := by
  unfold State.commitWindow
  split
  · split
    · exact (paced_closeWindow s).trans (paced_refuse _ _)
    · exact (((quiet_applyChange s _ _ _).trans (quiet_markStale _ _)).paced.trans (paced_closeWindow _)).ok
  · exact (paced_closeWindow s).trans (paced_refuse _ _)

theorem paced_unblock (s : State) (b : BayIdx) : Paced s (s.unblock b) := by
  unfold State.unblock
  split
  · exact (Paced.refl s).ok
  · split
    · exact paced_refuse s _
    · exact ((paced_modBay s b _).trans (quiet_trigger _).paced).ok

/-- A calibration that starts drops an outstanding settle count (R117). -/
theorem paced_startCalibration (s : State) (b : BayIdx) : Paced s (s.startCalibration b) :=
  ⟨rfl, Iff.rfl, rfl, List.filter_subset_self _⟩

/-! ### The Bay Link -/

theorem paced_endVisit (s : State) (f : Bay → Bay) : Paced s (s.endVisit f) := .of

theorem paced_miss (s : State) : Paced s s.miss := by
  unfold State.miss
  split
  · exact .refl s
  · exact paced_endVisit s _

theorem paced_report (s : State) (f : BayIdx → State → State) (hf : ∀ b t, Paced t (f b t)) : Paced s (s.report f) := by
  unfold State.report
  split
  · exact .refl s
  · exact (paced_endVisit s _).trans (hf _ _)

theorem paced_writeAnswer (s : State) (b : BayIdx) (c : AnswerCode) (h : Nat) : Paced s (s.writeAnswer b c h) := paced_modBay s b _

theorem paced_withLinkHandle (s : State) (b : BayIdx) (h : Nat) (f : RecIdx → State → State) (hf : ∀ i, Paced s (f i s)) :
    Paced s (s.withLinkHandle b h f) := by
  unfold State.withLinkHandle
  split
  · exact hf _
  · exact paced_writeAnswer _ _ _ _

theorem paced_askFor (s : State) (b : BayIdx) (r : Request) : Paced s (s.askFor b r) := by
  unfold State.askFor
  split
  · exact paced_writeAnswer _ _ _ _
  · split
    · exact paced_writeAnswer _ _ _ _
    · split
      · exact (quiet_raise _ _).paced.trans (paced_writeAnswer _ _ _ _)
      · exact (paced_create s _ _ _).trans (paced_writeAnswer _ _ _ _)

theorem paced_takeChange (s : State) (b : BayIdx) (h requested floor : Nat) : Paced s (s.takeChange b h requested floor) := by
  have hc : ∀ i c, Paced s (s.changeRecord b h i c) := fun i c => by
    unfold State.changeRecord
    split
    · exact paced_writeAnswer _ _ _ _
    · exact ((quiet_applyChange s _ _ _).trans (quiet_markStale _ _)).paced.trans (paced_writeAnswer _ _ _ _)
  unfold State.takeChange
  split
  · exact paced_writeAnswer _ _ _ _
  · refine paced_withLinkHandle s b h _ fun i => ?_
    split
    · exact paced_writeAnswer _ _ _ _
    · exact hc _ _

/-! ### Time -/

theorem paced_takePart (s : State) (p : BoundaryPart) : Paced s (s.takePart p) :=
  .of (steady_takePart s p).params (by rw [(steady_takePart s p).opState]) (timer_takePart s p)

theorem paced_takeOutstanding (s : State) (p : BoundaryPart) : Paced s (s.takeOutstanding p) :=
  .trans (t := { s with timer := { s.timer with outstanding := s.timer.outstanding.filter (· ≠ p) } })
    ⟨rfl, Iff.rfl, rfl, List.filter_subset_self _⟩ (paced_takePart _ p)

theorem paced_finishBoundary (s : State) : Paced s s.finishBoundary :=
  .trans (t := { s with timer := { s.timer with outstanding := [] } }) ⟨rfl, Iff.rfl, rfl, List.nil_subset _⟩
    (Paced.foldl paced_takePart _ _)

theorem paced_recordEvent (s : State) (i : RecIdx) (due : Life → Bool) : Paced s (s.recordEvent i due) := by
  unfold State.recordEvent
  split
  · split
    · exact paced_takeOutstanding _ _
    · exact .refl s
  · exact .refl s

/-! ### Conversions and check windows -/

theorem paced_requestConfirm (s : State) (c : Channel) : Paced s (s.requestConfirm c) := .of

theorem paced_endCalibration (s : State) (b : BayIdx) (r : CalResult) : Paced s (s.endCalibration b r) :=
  ((paced_modBay s b _).trans (quiet_addEvent _ _ _).paced).trans (quiet_trigger _).paced

theorem paced_countCharge (s : State) (b : BayIdx) (r : Nat) : Paced s (s.countCharge b r) := by
  unfold State.countCharge
  split
  · exact .refl s
  · split
    · exact .refl s
    · exact paced_modBay s b _

theorem paced_judgeScan (s : State) (b : BayIdx) (r : Nat) : Paced s (s.judgeScan b r) := by
  unfold State.judgeScan
  split
  · split
    · exact paced_requestConfirm _ _
    · exact .refl s
  · split
    · exact (quiet_rampEnd _ _).paced
    · exact .refl s
  · exact .refl s
  · split
    · exact paced_requestConfirm _ _
    · exact .refl s

theorem paced_strike (s : State) (i : RecIdx) : Paced s (s.strike i) := by
  unfold State.strike
  split
  · dsimp only
    split
    · exact .trans .of (quiet_enterRetiring _ _ _).paced
    · exact .of
  · exact .refl s

theorem paced_judgeConfirm (s : State) (b : BayIdx) (r : Nat) : Paced s (s.judgeConfirm b r) := by
  unfold State.judgeConfirm
  split
  · split
    · exact paced_strike _ _
    · exact .refl s
  · split
    · exact (quiet_rampEnd _ _).paced
    · exact .refl s
  · exact .refl s
  · split
    · exact (quiet_blockBay _ _ _).paced
    · exact .refl s

theorem paced_quietRule (s : State) (b : BayIdx) (r : Nat) : Paced s (s.quietRule b r) := by
  unfold State.quietRule
  split
  · exact paced_endCalibration _ _ _
  · exact .refl s

theorem paced_calSample (s : State) (b : BayIdx) (raw : Int) : Paced s (s.calSample b raw) := by
  unfold State.calSample
  split
  · split
    · exact paced_endCalibration _ _ _
    · split
      · unfold State.completeCalibration
        split
        · exact (paced_modBay s b _).trans (paced_endCalibration _ _ _)
        · exact paced_endCalibration _ _ _
      · exact .of
  · exact .refl s

theorem paced_takeTemp (s : State) (r : Nat) : Paced s (s.takeTemp r) := by
  unfold State.takeTemp
  split
  · exact .trans .of (paced_deriveZone _)
  · exact .refl s

theorem paced_deliverScan (s : State) (c : Channel) (r : Nat) : Paced s (s.deliverScan c r) := by
  unfold State.deliverScan
  split
  · exact (((paced_modBay s _ _).trans (paced_countCharge _ _ _)).trans (paced_judgeScan _ _ _)).trans (paced_quietRule _ _ _)
  · split
    · split
      · exact paced_requestConfirm _ _
      · exact .refl s
    · exact paced_takeTemp _ _

/-- A FEED result trips the part only in RUNNING and HOLD (R112). -/
theorem State.feedOver_working (s : State) (r : Nat) (h : s.feedOver r = true) : s.alloc.opState ≠ .standby := fun e => by
  simp [State.feedOver, e] at h

theorem paced_deliverConfirm (s : State) (c : Channel) (r : Nat) : Paced s (s.deliverConfirm c r) := by
  unfold State.deliverConfirm
  split
  · exact (paced_modBay s _ _).trans (paced_judgeConfirm _ _ _)
  · split
    · rename_i h
      exact paced_enterTrip s (s.feedOver_working r h.2)
    · exact .refl s

theorem paced_deliver (s : State) (v : Conversion) (raw : Int) : Paced s (s.deliver v raw) := by
  unfold State.deliver
  split
  · exact paced_deliverScan _ _ _
  · exact paced_deliverConfirm _ _ _
  · exact .of
  · split
    · exact paced_calSample _ _ _
    · exact .refl s

theorem paced_nextConversion (s : State) : Paced s s.nextConversion := .of

theorem paced_converting (s : State) : Paced s s.converting.1 := by
  unfold State.converting
  split
  · exact .refl s
  · exact .of

theorem paced_judgeFallback (s : State) (good : Bool) : Paced s (s.judgeFallback good) := by
  unfold State.judgeFallback
  split
  · exact .refl s
  · split
    · exact .of
    · split
      · exact .of
      · split
        · exact .of
        · exact .trans .of (paced_clearHoldClock _)

theorem paced_judgeWindow (s : State) (good : Bool) : Paced s (s.judgeWindow good) := by
  unfold State.judgeWindow
  split
  · split
    · exact .of
    · exact .refl s
  · split
    · exact .refl s
    · exact .trans .of (paced_setHoldClock _)
  · exact paced_judgeFallback s good

/-! ### In pace -/

/-- The parameters are legal, and the timer follows the operating state (R54, R55, R57, R161). -/
def State.InPace (s : State) : Prop :=
  s.params.Legal ∧ s.TimerExact

/-- An outcome is a next state that is in pace when `s` is. -/
def KeepsPace (s : State) (o : Host.Outcome State Fault Refusal) : Prop :=
  ∃ t, o = .next t ∧ (s.InPace → t.InPace)

theorem Params.Legal.periodLength_pos {p : Params} (h : p.Legal) : 0 < p.periodLength := by
  obtain ⟨⟨h, -⟩, -⟩ := h
  omega

/-- STANDBY with the timer stopped (R57). -/
theorem inPace_stopped {s : State} (hp : s.params.Legal) (ho : s.alloc.opState = .standby) (ht : s.timer = Timer.stopped) : s.InPace := by
  refine ⟨hp, ?_, ?_, fun _ => ht⟩
  · rw [ht]
    exact hp.periodLength_pos
  · rw [ht, ho]
    exact iff_of_false nofun fun h => h rfl

/-- A running timer outside STANDBY (R54, R55). -/
theorem inPace_running {s : State} (hp : s.params.Legal) (ho : s.alloc.opState ≠ .standby) (hr : s.timer.running = true)
    (hm : s.timer.ms < s.params.periodLength) : s.InPace :=
  ⟨hp, hm, iff_of_true hr ho, fun h => by simp [hr] at h⟩

theorem State.InPace.working {s : State} (h : s.InPace) (hr : s.timer.running = true) : s.alloc.opState ≠ .standby := by
  obtain ⟨-, -, ho, -⟩ := h
  exact ho.mp hr

theorem State.InPace.stopped {s : State} (h : s.InPace) (ho : s.alloc.opState = .standby) : s.timer = Timer.stopped := by
  obtain ⟨-, -, hr, ht⟩ := h
  exact ht (Bool.eq_false_iff.mpr fun e => hr.mp e ho)

theorem Paced.inPace {s t : State} (h : Paced s t) (hs : s.InPace) : t.InPace := by
  have hp : t.params.Legal := by
    rw [h.params]
    exact hs.1
  by_cases ho : s.alloc.opState = .standby
  · refine inPace_stopped hp (h.standby.mpr ho) ?_
    have ht := hs.stopped ho
    have hl : t.timer.outstanding = [] := List.subset_nil.mp (by simpa [ht, Timer.stopped, Timer.reset] using h.outstanding)
    rw [h.timer, hl, ht]
    rfl
  · obtain ⟨-, hm, hr, -⟩ := hs
    refine inPace_running hp (fun e => ho (h.standby.mp e)) ?_ ?_
    · rw [h.timer]
      exact hr.mpr ho
    · rw [h.timer, h.params]
      exact hm

theorem Paced.keeps {s t : State} (h : Paced s t) : KeepsPace s (.next t) := ⟨t, rfl, h.inPace⟩

/-! ### The commands that move the parameters, STANDBY or the count -/

theorem keepsPace_deviceReset (s : State) : KeepsPace s (execDeviceReset s) := by
  obtain ⟨-, -, -, -, -, -, -, hp, ht, -⟩ := invariantsHoldAtReset
  exact ⟨_, rfl, fun _ => ⟨hp, ht⟩⟩

/-- A command without arguments that keeps the part in pace, and one with arguments, which is refused. -/
theorem keepsPace_noArgs (s : State) (args : List Byte) (f : State → State) (h : s.InPace → (f s).InPace) :
    KeepsPace s (.next (s.noArgs args f)) := by
  refine ⟨_, rfl, fun hs => ?_⟩
  unfold State.noArgs
  split
  · exact h hs
  · exact (paced_refuse s _).inPace hs

/-- START leaves the timer running at count 0, in HOLD, RUNNING or TRIP (R155). -/
theorem inPace_startUp (s : State) (hp : s.params.Legal) : s.startUp.InPace := by
  unfold State.startUp
  dsimp only
  generalize hv : State.modBays _ _ = v
  have hv1 : v.params = s.params := by rw [← hv]; rfl
  have hv2 : v.timer = { Timer.reset with running := true } := by rw [← hv]; rfl
  have hm : v.timer.ms < v.params.periodLength := by
    rw [hv1, hv2]
    exact hp.periodLength_pos
  split
  · have ht : v.enterTrip.alloc.opState = .trip := by rw [v.entersTrip.frame]
    have U := untouched_enterTrip v
    refine inPace_running (by rwa [U.params, hv1]) (by rw [ht]; exact nofun) (by rw [U.timer, hv2]) ?_
    rw [U.timer, U.params]
    exact hm
  · refine inPace_running ?_ v.opState_enterWork ?_ ?_
    · rw [State.enterWork_eq]
      rwa [hv1]
    · rw [State.enterWork_eq, hv2]
    · rw [State.enterWork_eq]
      exact hm

theorem keepsPace_start (s : State) (args : List Byte) : KeepsPace s (execStart args s) := by
  refine keepsPace_noArgs s args _ fun hs => ?_
  split
  · exact (Paced.refl _).ok.inPace (inPace_startUp s hs.1)
  · exact (paced_refuse s _).inPace hs

/-- STOP takes the parts outstanding and stops the timer (R57, R156). -/
theorem inPace_shutDown (s : State) (hp : s.params.Legal) : s.shutDown.InPace := by
  unfold State.shutDown
  refine inPace_stopped ?_ (by rw [State.alloc_setAllWaitReasons]) (by rw [State.timer_setAllWaitReasons])
  rw [State.params_setAllWaitReasons]
  show s.finishBoundary.params.Legal
  rwa [(steady_finishBoundary s).params]

theorem keepsPace_stop (s : State) (args : List Byte) : KeepsPace s (execStop args s) := by
  refine keepsPace_noArgs s args _ fun hs => ?_
  split
  · exact (Paced.refl s).ok.inPace hs
  · split
    · exact (paced_refuse s _).inPace hs
    · exact (Paced.refl _).ok.inPace (inPace_shutDown s hs.1)

theorem keepsPace_restart (s : State) (args : List Byte) : KeepsPace s (execRestart args s) := by
  refine keepsPace_noArgs s args _ fun hs => ?_
  rw [State.restarted_eq]
  have h := s.finishBoundary.vacated_frame
  refine inPace_stopped ?_ (by rw [h]) (by rw [h]; rfl)
  rw [h]
  show s.finishBoundary.params.Legal
  rw [(steady_finishBoundary s).params]
  exact hs.1

/-- A parameter in its range is written, and the orderings hold of the result (R161). -/
theorem Params.legal_write (p : Params) (n v : Nat) (h : p.Legal) (hr : paramInRange n v = true) (ho : (p.write n v).ordered = true) :
    (p.write n v).Legal := by
  have hn : n < 18 := by
    by_contra hn
    obtain ⟨k, rfl⟩ := Nat.exists_eq_add_of_le (Nat.le_of_not_lt hn)
    simp [paramInRange, paramRange, Nat.add_comm 18 k] at hr
  simp only [Params.ordered, Bool.and_eq_true, decide_eq_true_eq] at ho
  unfold Params.Legal at h ⊢
  interval_cases n <;> simp only [paramInRange, paramRange, Params.write, Bool.and_eq_true, decide_eq_true_eq] at hr ho ⊢ <;> omega

/-- A parameter is written in STANDBY, where the timer stands still (R57, R161). -/
theorem inPace_configWrite (s : State) (n v : Nat) (hs : s.InPace) : (s.configWrite n v).InPace := by
  unfold State.configWrite
  split
  · exact (paced_refuse s _).inPace hs
  · rename_i hr
    split
    · exact (paced_refuse s _).inPace hs
    · rename_i ho
      split
      · exact (paced_refuse s _).inPace hs
      · rename_i hw
        have ho : s.alloc.opState = .standby := not_not.mp ho
        have hp := s.params.legal_write n v hs.1 (Bool.not_eq_false _ ▸ hr) (Bool.not_eq_false _ ▸ hw)
        have h1 : State.InPace { s with params := s.params.write n v } := inPace_stopped hp ho (hs.stopped ho)
        refine (Paced.refl _).ok.inPace ?_
        unfold State.writeParam
        split
        · exact hs
        · dsimp only
          split
          · exact (paced_deriveZone _).inPace h1
          · exact h1

theorem keepsPace_configWrite (s : State) (args : List Byte) : KeepsPace s (execConfigWrite args s) := by
  refine ⟨_, rfl, fun hs => ?_⟩
  split
  · exact inPace_configWrite s _ _ hs
  · exact (paced_refuse s _).inPace hs

/-- A boundary sets the count to 0 (R56). -/
theorem keepsPace_periodBoundary (s : State) (later : List BoundaryPart) : KeepsPace s (execPeriodBoundary later s) := by
  refine ⟨_, rfl, fun hs => ?_⟩
  split
  · rename_i h
    have K := (steady_finishBoundary s).trans (steady_boundary s.finishBoundary later)
    have ht := timer_boundary s.finishBoundary later
    rw [timer_finishBoundary] at ht
    refine inPace_running ?_ ?_ (by rw [ht]; exact h.1) ?_
    · rw [K.params]
      exact hs.1
    · rw [K.opState]
      exact hs.working h.1
    · rw [ht, K.params]
      exact hs.1.periodLength_pos
  · exact hs

/-- A tick leaves the count below the period length (R55). -/
theorem keepsPace_millisecondTick (s : State) : KeepsPace s (execMillisecondTick s) := by
  refine ⟨_, rfl, fun hs => ?_⟩
  split
  · rename_i h
    have K := steady_finishBoundary s
    have ht := timer_finishBoundary s
    refine inPace_running ?_ ?_ ?_ ?_
    · show s.finishBoundary.params.Legal
      rw [K.params]
      exact hs.1
    · show s.finishBoundary.alloc.opState ≠ .standby
      rw [K.opState]
      exact hs.working h.1
    · show s.finishBoundary.timer.running = true
      rw [ht]
      exact h.1
    · show s.finishBoundary.timer.ms + 1 < s.finishBoundary.params.periodLength
      rw [ht, K.params]
      exact h.2
  · exact hs

/-! ### All commands -/

theorem keepsPace_ceilingWrite (s : State) (args : List Byte) : KeepsPace s (execCeilingWrite args s) := by
  refine Paced.keeps ?_
  split
  · split
    · exact Paced.ok (.trans .of (paced_setEffective _ _))
    · exact paced_refuse s _
  · exact paced_refuse s _

theorem keepsPace_bayGate (s : State) (args : List Byte) : KeepsPace s (execBayGate args s) := by
  refine Paced.keeps ?_
  split
  · split
    · exact (paced_setGates s _ _).ok
    · split
      · exact (paced_setGates s _ _).ok
      · exact paced_refuse s _
  · exact paced_refuse s _

theorem keepsPace_holdSet (s : State) (args : List Byte) : KeepsPace s (execHoldSet args s) := by
  refine (paced_noArgs s args _ ?_).keeps
  refine Paced.ok ?_
  split
  · exact .refl s
  · exact paced_setHoldPort s

theorem keepsPace_holdClear (s : State) (args : List Byte) : KeepsPace s (execHoldClear args s) := by
  refine (paced_noArgs s args _ ?_).keeps
  refine Paced.ok ?_
  split
  · exact paced_clearHoldPort s
  · exact .refl s

/-- RESUME is taken in TRIP only (R158). -/
theorem keepsPace_resume (s : State) (args : List Byte) : KeepsPace s (execResume args s) := by
  refine (paced_noArgs s args _ ?_).keeps
  split
  · rename_i h
    refine (paced_enterWork s ?_).ok
    rw [h.1]
    exact nofun
  · exact paced_refuse s _

theorem keepsPace_alloc (s : State) (args : List Byte) : KeepsPace s (execAlloc args s) := by
  refine Paced.keeps ?_
  split
  · split
    · split
      · exact paced_allocFor s _ _
      · exact paced_refuse s _
    · exact paced_refuse s _
  · exact paced_refuse s _

theorem keepsPace_lookupBay (s : State) (args : List Byte) : KeepsPace s (execLookupBay args s) := by
  refine (paced_bayArg s args _ fun b => ?_).keeps
  split
  · exact paced_answer s _ _
  · exact paced_refuse s _

theorem keepsPace_reclaim (s : State) (args : List Byte) : KeepsPace s (execReclaim args s) := by
  refine (paced_handleArg s args _ fun v => paced_withHandle s v _ fun i => ?_).keeps
  split
  · exact (paced_reclaimRecord s i _).ok
  · exact paced_refuse s _

theorem keepsPace_renew (s : State) (args : List Byte) : KeepsPace s (execRenew args s) := by
  refine (paced_handleArg s args _ fun v => paced_withHandle s v _ fun i => ?_).keeps
  split
  · exact (Paced.refl s).ok
  · exact (quiet_reloadLease s i).paced.ok
  · exact paced_refuse s _

theorem keepsPace_editOpen (s : State) (args : List Byte) : KeepsPace s (execEditOpen args s) := by
  refine (paced_handleArg s args _ fun v => paced_withHandle s v _ fun i => ?_).keeps
  split
  · exact paced_openWindow s i _
  · exact paced_openWindow s i _
  · exact paced_refuse s _

theorem keepsPace_editPut (s : State) (args : List Byte) : KeepsPace s (execEditPut args s) := by
  refine Paced.keeps ?_
  split
  · split
    · exact paced_putWindow s _
    · exact paced_refuse s _
  · exact paced_refuse s _

theorem keepsPace_editTaper (s : State) (args : List Byte) : KeepsPace s (execEditTaper args s) := by
  refine Paced.keeps ?_
  split
  · exact paced_putWindow s _
  · exact paced_refuse s _

theorem keepsPace_editCommit (s : State) (args : List Byte) : KeepsPace s (execEditCommit args s) := by
  refine (paced_noArgs s args _ ?_).keeps
  split
  · exact paced_refuse s _
  · split
    · exact (paced_closeWindow s).trans (paced_refuse _ _)
    · split
      · exact (paced_closeWindow s).ok
      · exact paced_commitWindow s _

theorem keepsPace_editDrop (s : State) (args : List Byte) : KeepsPace s (execEditDrop args s) := by
  refine (paced_noArgs s args _ ?_).keeps
  split
  · exact (paced_closeWindow s).ok
  · exact paced_refuse s _

theorem keepsPace_calStart (s : State) (args : List Byte) : KeepsPace s (execCalStart args s) := by
  refine (paced_bayArg s args _ fun b => ?_).keeps
  split
  · exact paced_refuse s _
  · exact (paced_startCalibration s b).ok

theorem keepsPace_sampleRequest (s : State) (args : List Byte) : KeepsPace s (execSampleRequest args s) := by
  refine (paced_channelArg s args _ fun c => ?_).keeps
  split
  · exact paced_refuse s _
  · exact .of

theorem keepsPace_clockReturn (s : State) (arrival : ReturnArrival) : KeepsPace s (execClockReturn arrival s) := by
  refine (paced_noArgs s arrival.args _ ?_).keeps
  split
  · exact paced_refuse s _
  · split
    · exact paced_refuse s _
    · exact .of

/-- A change of the bays, the Attention Unit and the Clock Monitor. -/
theorem paced_blocks (s : State) (v : Vector Bay 16) (a : Attention) (c : Clock) :
    Paced s { s with bays := v, attention := a, clock := c } := .of

theorem keepsPace_flagsRead (s : State) (args : List Byte) : KeepsPace s (execFlagsRead args s) := by
  refine (paced_noArgs s args _ ?_).keeps
  exact (paced_blocks s s.bays s.attention.see s.clock).trans (paced_answer _ _ _)

theorem keepsPace_flagsClear (s : State) (args : List Byte) : KeepsPace s (execFlagsClear args s) := by
  refine (paced_flagMaskArg s args _ fun m => ?_).keeps
  exact (paced_blocks s _ _ s.clock).ok

theorem keepsPace_flagsEnable (s : State) (args : List Byte) : KeepsPace s (execFlagsEnable args s) := by
  refine (paced_flagMaskArg s args _ fun m => ?_).keeps
  exact (paced_blocks s s.bays _ s.clock).ok

/-- A command without arguments that only reports. -/
theorem keepsPace_reports (s : State) (args : List Byte) (l : State → List Byte) :
    KeepsPace s (.next (s.noArgs args fun s => s.answer .ok (l s))) :=
  (paced_noArgs s args _ (paced_answer s _ _)).keeps

theorem keepsPace_transactionAbort (s : State) (sent : List Byte) : KeepsPace s (execTransactionAbort sent s) := by
  refine Paced.keeps ?_
  exact .of

theorem keepsPace_pollSend (s : State) : KeepsPace s (execPollSend s) := by
  refine Paced.keeps ?_
  split
  · exact .of
  · exact .refl s

theorem keepsPace_ask (s : State) (cls : Byte) (requested floor : Half) (lease mask value : Byte) :
    KeepsPace s (execAsk cls requested floor lease mask value s) := by
  refine (paced_report s _ fun b t => ?_).keeps
  split
  · exact paced_askFor t b _
  · exact paced_writeAnswer t b _ _

theorem keepsPace_linkRenew (s : State) (h : Half) : KeepsPace s (execLinkRenew h s) := by
  refine (paced_report s _ fun b t => paced_withLinkHandle t b _ _ fun i => ?_).keeps
  split
  · exact paced_writeAnswer t b _ _
  · exact (quiet_reloadLease t i).paced.trans (paced_writeAnswer _ b _ _)

theorem keepsPace_release (s : State) (h : Half) : KeepsPace s (execRelease h s) := by
  refine (paced_report s _ fun b t => paced_withLinkHandle t b _ _ fun i => ?_).keeps
  split
  · exact (quiet_enterSpent t i _ _).paced.trans (paced_writeAnswer _ b _ _)
  · exact (quiet_enterRetiring t i _).paced.trans (paced_writeAnswer _ b _ _)
  · exact paced_writeAnswer t b _ _

theorem keepsPace_admissionPass (s : State) : KeepsPace s (execAdmissionPass s) := by
  refine Paced.keeps ?_
  split
  · exact .refl s
  · split
    · exact (quiet_pass s).paced
    · exact .of

theorem keepsPace_strikeWindowEnd (s : State) (i : RecIdx) : KeepsPace s (execStrikeWindowEnd i s) := by
  refine Paced.keeps ?_
  split
  · split
    · exact paced_takeOutstanding _ _
    · exact .refl s
  · exact .refl s

theorem keepsPace_closeWindowEnd (s : State) : KeepsPace s (execCloseWindowEnd s) := by
  refine Paced.keeps ?_
  split
  · exact paced_takeOutstanding _ _
  · exact .refl s

theorem keepsPace_settleEnd (s : State) (b : BayIdx) : KeepsPace s (execSettleEnd b s) := by
  refine Paced.keeps ?_
  split
  · exact paced_takeOutstanding _ _
  · exact .refl s

theorem keepsPace_signalPeriodStart (s : State) : KeepsPace s (execSignalPeriodStart s) :=
  (paced_blocks s (s.modBays fun y => { y with inEffectDuty := y.stagedDuty }).bays s.attention s.clock.millisecond).keeps

theorem keepsPace_conversionEnd (s : State) (reading : Reading) : KeepsPace s (execConversionEnd reading s) := by
  refine Paced.keeps ?_
  split
  · exact ((paced_converting s).trans (paced_nextConversion _)).trans (paced_deliver _ _ _)
  · exact ((paced_converting s).trans (paced_deliver _ _ _)).trans (paced_nextConversion _)

theorem keepsPace_checkWindowEnd (s : State) (cycles : Nat) : KeepsPace s (execCheckWindowEnd cycles s) :=
  Paced.keeps (.trans .of (paced_judgeWindow _ _))

/-- Every command keeps the parameters legal and the timer in line with the operating state. -/
theorem exec_keepsPace (c : Instr) (s : State) : KeepsPace s (exec c s) := by
  cases c with
  | deviceReset => exact keepsPace_deviceReset s
  | start args => exact keepsPace_start s args
  | stop args => exact keepsPace_stop s args
  | restart args => exact keepsPace_restart s args
  | holdSet args => exact keepsPace_holdSet s args
  | holdClear args => exact keepsPace_holdClear s args
  | resume args => exact keepsPace_resume s args
  | configWrite args => exact keepsPace_configWrite s args
  | configRead args => exact keepsPace_reports s args _
  | ceilingWrite args => exact keepsPace_ceilingWrite s args
  | bayGate args => exact keepsPace_bayGate s args
  | alloc args => exact keepsPace_alloc s args
  | lookupHandle args => exact (paced_handleArg s args _ fun v => paced_withHandle s v _ fun _ => paced_answer s _ _).keeps
  | lookupBay args => exact keepsPace_lookupBay s args
  | retireGraceful args => exact (paced_retire s args).keeps
  | retireImmediate args => exact (paced_retire s args).keeps
  | reclaim args => exact keepsPace_reclaim s args
  | renew args => exact keepsPace_renew s args
  | editOpen args => exact keepsPace_editOpen s args
  | editPut args => exact keepsPace_editPut s args
  | editTaper args => exact keepsPace_editTaper s args
  | editCommit args => exact keepsPace_editCommit s args
  | editDrop args => exact keepsPace_editDrop s args
  | queueRead args => exact keepsPace_reports s args _
  | orderRead args => exact keepsPace_reports s args _
  | loadRead args => exact keepsPace_reports s args _
  | bayRead args => exact (paced_bayArg s args _ fun _ => paced_answer s _ _).keeps
  | bayUnblock args => exact (paced_bayArg s args _ fun b => paced_unblock s b).keeps
  | calStart args => exact keepsPace_calStart s args
  | sampleRequest args => exact keepsPace_sampleRequest s args
  | sampleRead args => exact (paced_channelArg s args _ fun _ => paced_answer s _ _).keeps
  | clockReturn arrival => exact keepsPace_clockReturn s arrival
  | clockRead args => exact keepsPace_reports s args _
  | flagsRead args => exact keepsPace_flagsRead s args
  | flagsClear args => exact keepsPace_flagsClear s args
  | flagsEnable args => exact keepsPace_flagsEnable s args
  | identRead args => exact keepsPace_reports s args _
  | badCommand code args => exact (paced_refuse s _).keeps
  | transactionAbort sent => exact keepsPace_transactionAbort s sent
  | pollSend => exact keepsPace_pollSend s
  | replyWindowExpiry => exact (paced_miss s).keeps
  | badFrame => exact (paced_miss s).keeps
  | foreignFrame => exact (paced_miss s).keeps
  | reportNone => exact (paced_report s _ fun _ t => .refl t).keeps
  | ask cls requested floor lease mask value => exact keepsPace_ask s cls requested floor lease mask value
  | change handle requested floor => exact (paced_report s _ fun b t => paced_takeChange t b _ _ _).keeps
  | linkRenew handle => exact keepsPace_linkRenew s handle
  | release handle => exact keepsPace_release s handle
  | admissionPass => exact keepsPace_admissionPass s
  | periodBoundary later => exact keepsPace_periodBoundary s later
  | leaseEnd i => exact (paced_recordEvent s i _).keeps
  | taperStepAdvance i => exact (paced_recordEvent s i _).keeps
  | taperEnd i => exact (paced_recordEvent s i _).keeps
  | rampTimeout i => exact (paced_recordEvent s i _).keeps
  | strikeWindowEnd i => exact keepsPace_strikeWindowEnd s i
  | closeWindowEnd => exact keepsPace_closeWindowEnd s
  | settleEnd b => exact keepsPace_settleEnd s b
  | signalPeriodStart => exact keepsPace_signalPeriodStart s
  | conversionEnd reading => exact keepsPace_conversionEnd s reading
  | checkWindowEnd cycles => exact keepsPace_checkWindowEnd s cycles
  | millisecondTick => exact keepsPace_millisecondTick s

theorem step_keeps_inPace {s t : State} (h : step s = .next t) (hs : s.InPace) : t.InPace := by
  unfold step at h
  split at h
  · cases h
    exact hs
  · rename_i c rest _
    obtain ⟨u, e, k⟩ := exec_keepsPace c { s with pending := rest }
    rw [e] at h
    cases h
    exact k hs

end Sys2Proof.Machine

open Sys2Proof Sys2Proof.Machine

/-- Settles O57: device reset, START, STOP, RESTART, CONFIG.WRITE, a boundary and a tick each keep it by what they set; no other command moves
the parameters, STANDBY or the count. -/
theorem parametersAndTimerStayLegal : Obligations.ParametersAndTimerStayLegal := fun _ _ hp hT e => step_keeps_inPace e ⟨hp, hT⟩

end

section
/-!
A whole boundary (O40): what each part of it does to the record and the entry of its bay, and the 16 bay parts, strike window counts and charge
claims one after another.
-/
set_option Elab.async false

namespace Sys2Proof.Machine

/-! ### The counts of a grant -/

/-- A taper count takes the row of R67 in which the taper state stands. -/
theorem countTaper_counts (l : List TaperStep) (ts : TaperState) : TaperCounts l ts (countTaper l ts).1 := by
  unfold TaperCounts countTaper
  cases hu : ts.unopened with
  | true => exact .inl ⟨rfl, rfl⟩
  | false =>
    refine .inr ?_
    simp only [Bool.false_eq_true, if_false, true_and]
    split
    · exact .inl ⟨‹_›, rfl⟩
    · split
      · exact .inr (.inr (.inr ⟨‹_›, rfl⟩))
      · have h1 : ts.left = 1 := by omega
        split
        · rename_i st hst
          exact .inr (.inl ⟨h1, st, hst, rfl⟩)
        · exact .inr (.inr (.inl ⟨h1, ‹_›, rfl⟩))

/-- A taper is exhausted at a current of 0 where its last step ends with it (R68). -/
theorem countTaper_ends_iff (l : List TaperStep) (ts : TaperState) : (countTaper l ts).2 = true ↔
    ts.unopened = false ∧ ts.left = 1 ∧ l[ts.step + 1]? = none ∧ ∃ st, l[ts.step]? = some st ∧ st.current = 0 := by
  unfold countTaper
  cases hu : ts.unopened with
  | true => simp
  | false =>
    simp only [Bool.false_eq_true, if_false, true_and]
    split
    · simp only [Bool.false_eq_true, false_iff]
      omega
    · split
      · simp only [Bool.false_eq_true, false_iff]
        omega
      · have h1 : ts.left = 1 := by omega
        split
        · rename_i st hst
          simp [hst]
        · rename_i hn
          simp [h1, hn]

/-- A grant whose taper does not run out goes on, and its taper is counted (R67, R68). -/
theorem Grant.countTaper_runs (g : Grant) (u : Terms) (h : ¬ TaperRunsOut u.taper g) :
    Grant.countTaper u g = ({ g with taperState := g.taperState.map fun ts => (Machine.countTaper u.taper ts).1 }, none) := by
  unfold Grant.countTaper
  cases ht : g.taperState with
  | none =>
    show (g, none) = ({ g with taperState := none }, none)
    rw [← ht]
  | some ts =>
    have hn : ¬ (Machine.countTaper u.taper ts).2 = true := fun e => by
      obtain ⟨h1, h2, h3, st, h4, h5⟩ := (countTaper_ends_iff _ _).mp e
      exact h ⟨ts, st, ht, h1, h2, h3, h4, h5⟩
    simp [hn]

theorem Grant.countTaper_runsOut (g : Grant) (u : Terms) (h : TaperRunsOut u.taper g) : (Grant.countTaper u g).2 = some .taperEnd := by
  obtain ⟨ts, st, ht, h1, h2, h3, h4, h5⟩ := h
  have he := (countTaper_ends_iff u.taper ts).mpr ⟨h1, h2, h3, st, h4, h5⟩
  simp [Grant.countTaper, ht, he]

theorem Grant.boundary_leaseRunsOut (g : Grant) (u : Terms) (h : LeaseRunsOut g) : (g.boundary u).2 = some .leaseEnd := by
  obtain ⟨n, hl, hn⟩ := h
  rw [g.boundary_leaseEnds u n hl hn]

theorem LeaseRunsOut.longer {g : Grant} (h : ¬ LeaseRunsOut g) : ∀ n, g.leaseLeft = some n → 1 < n := fun n hl =>
  Nat.lt_of_not_le fun hn => h ⟨n, hl, hn⟩

/-- The taper is judged when the lease did not end (R58, R68). -/
theorem Grant.boundary_taperRunsOut (g : Grant) (u : Terms) (hl : ¬ LeaseRunsOut g) (ht : TaperRunsOut u.taper g) :
    (g.boundary u).2 = some .taperEnd := by
  rw [g.boundary_leaseRuns u (LeaseRunsOut.longer hl)]
  exact Grant.countTaper_runsOut _ u ht

/-- A grant that outlives a boundary (R59, R61, R67). -/
theorem Grant.boundary_runs (g : Grant) (u : Terms) (hl : ¬ LeaseRunsOut g) (ht : ¬ TaperRunsOut u.taper g) :
    g.boundary u = ({ g with
      active := g.staged, leaseLeft := g.leaseLeft.map (· - 1)
      taperState := g.taperState.map fun ts => (Machine.countTaper u.taper ts).1 }, none) := by
  rw [g.boundary_leaseRuns u (LeaseRunsOut.longer hl)]
  exact Grant.countTaper_runs _ u ht

/-! ### A record at a boundary -/

/-- A record after its boundary step, `timeout` being the ramp a retirement begins (R15, R21, R58, R70). -/
def Life.stepped (timeout : Nat) : Life → Life
  | .granted t g =>
    match (g.boundary t).2 with
    | some c => .retiring t g.staged c timeout
    | none => .granted t (g.boundary t).1
  | .retiring t a c n => if n ≤ 1 then .spent t c true else .retiring t a c (n - 1)
  | l => l

theorem Life.stepped_ends (timeout : Nat) (t : Terms) (g : Grant) (c : EndCause) (h : (g.boundary t).2 = some c) :
    (Life.granted t g).stepped timeout = .retiring t g.staged c timeout := by
  simp only [Life.stepped, h]

theorem Life.stepped_goesOn (timeout : Nat) (t : Terms) (g : Grant) (h : (g.boundary t).2 = none) :
    (Life.granted t g).stepped timeout = .granted t (g.boundary t).1 := by
  simp only [Life.stepped, h]

/-- A record that holds no load is not stepped (R58). -/
theorem Life.stepped_unloaded (timeout : Nat) (l : Life) (h : l.holdsLoad = false) : l.stepped timeout = l := by
  cases l with
  | granted t g => cases h
  | retiring t a c n => cases h
  | _ => rfl

/-- Only a grant that goes on is GRANTED after the step. -/
theorem Life.stepped_granted {timeout : Nat} {l : Life} {t : Terms} {k : Grant} (h : l.stepped timeout = .granted t k) :
    ∃ g, l = .granted t g := by
  cases l with
  | granted u g =>
    cases hb : (g.boundary u).2 with
    | some c =>
      rw [Life.stepped_ends _ u g c hb] at h
      cases h
    | none =>
      rw [Life.stepped_goesOn _ u g hb] at h
      cases h
      exact ⟨g, rfl⟩
  | retiring u a c n => by_cases hn : n ≤ 1 <;> simp [Life.stepped, hn] at h
  | free => cases h
  | waiting u r => cases h
  | spent u c f => cases h

/-! ### A bay at a boundary -/

/-- The limit a bay has after its part of the boundary that opened the present position (R71, R78). -/
def State.limitAfter (s : State) (b : BayIdx) : Nat :=
  ((s.bayLife b).map fun l => (l.stepped s.params.retireTimeout).limitAt s.timer.position).getD 0

/-- The ramp of the record that the bay's entry names is cut short at this boundary (R21). -/
def State.RampCut (s : State) (b : BayIdx) : Prop :=
  (s.bayLife b).map Life.rampEnds = some true

/-- A bay's entry after its part of a boundary: the limit of its record's step after the end of both graces, or, where a ramp is cut short, an
open and blocked bay (R21, R74, R76, R78, R84, R85). -/
structure BayAfter (s : State) (b : BayIdx) (z : Bay) : Prop where
  kept : ¬ s.RampCut b → z = (s.bay b).endGraces.setLimit (s.limitAfter b)
  cut : s.RampCut b → z.record = none ∧ z.enable = .opened ∧ z.blockCause = .forcedOpen ∧ z.inEffectDuty = (s.bay b).inEffectDuty ∧
    z.closeCount = (s.bay b).closeCount ∧
    ((s.bay b).enable = .closed → z.limit = 0 ∧ z.stagedDuty = 0 ∧ z.decreaseGrace = none ∧ z.strayGrace = true)

/-- The bay part of a boundary: the named record is stepped, and the bay follows; no other record and no other bay changes. -/
structure BaySteps (s t : State) (b : BayIdx) : Prop where
  named : ∀ j, (s.bay b).record = some j → t.life j = (s.life j).stepped s.params.retireTimeout
  otherLives : ∀ j, (s.bay b).record ≠ some j → t.life j = s.life j
  bay : BayAfter s b (t.bay b)
  otherBays : ∀ c, c ≠ b → t.bay c = s.bay c

theorem State.rampCut_iff {s : State} {b : BayIdx} {i : RecIdx} (h : (s.bay b).record = some i) :
    s.RampCut b ↔ (s.life i).rampEnds = true := by
  rw [State.RampCut, bayLife_eq h]
  exact Option.some_inj

theorem State.limitAfter_eq {s : State} {b : BayIdx} {i : RecIdx} (h : (s.bay b).record = some i) :
    s.limitAfter b = ((s.life i).stepped s.params.retireTimeout).limitAt s.timer.position := by
  rw [State.limitAfter, bayLife_eq h]
  rfl

/-- With nothing outstanding, a part taken by a step of its own is the part. -/
theorem State.takeOutstanding_eq (s : State) (p : BoundaryPart) (h : s.timer.outstanding = []) : s.takeOutstanding p = s.takePart p := by
  have e : { s with timer := { s.timer with outstanding := s.timer.outstanding.filter (· ≠ p) } } = s := by
    rw [h, List.filter_nil, ← h]
  rw [State.takeOutstanding, e]

theorem Bay.inEffectDuty_setLimit (y : Bay) (n : Nat) : (y.setLimit n).inEffectDuty = y.inEffectDuty := by
  unfold Bay.setLimit
  split <;> rfl

theorem Bay.closeCount_setLimit (y : Bay) (n : Nat) : (y.setLimit n).closeCount = y.closeCount := by
  unfold Bay.setLimit
  split <;> rfl

/-- A grant that ends at the bay's part (R15, R58, R84). -/
theorem baySteps_ends (s : State) (i : RecIdx) (u : Terms) (g : Grant) (c : EndCause) (ho : s.timer.outstanding = [])
    (hr : (s.bay u.bay).record = some i) (h : s.life i = .granted u g) (hf : s.timer.found.get u.bay = some (s.handle i))
    (hc : (g.boundary u).2 = some c) : BaySteps s (s.bayBoundary u.bay) u.bay := by
  have hfr := s.foundRecord_of_held u.bay i hr hf
  have e : s.bayBoundary u.bay = _ := (s.takeOutstanding_eq (.bay u.bay) ho).symm.trans (s.takeOutstanding_ends i u g c h hfr hc)
  have A := s.activates i u g h
  rw [e]
  generalize (s.opening u.bay).become i (.granted u (g.boundary u).1) = m at *
  have R := m.entersRetiring i c u (g.boundary u).1 A.life
  have hl := Life.stepped_ends s.params.retireTimeout u g c hc
  refine ⟨fun j hj => ?_, fun j hj => ?_, ⟨fun _ => ?_, fun hcut => ?_⟩, fun b hb => ?_⟩
  · obtain rfl : i = j := Option.some_inj.mp (hr.symm.trans hj)
    rw [R.life, g.active_boundary, A.quiet.params, h, hl]
    rfl
  · have hji : j ≠ i := fun e => hj (e ▸ hr)
    rw [R.otherLives j hji, A.otherLives j hji]
  · rw [State.limitAfter_eq hr, h, hl, m.bay_enterRetiring i c u _ A.life, if_pos rfl, A.bays, State.bay_opening, if_pos rfl]
    rfl
  · rw [State.rampCut_iff hr, h] at hcut
    cases hcut
  · rw [R.otherBays b hb, A.bays, State.bay_opening, if_neg hb]

/-- A grant that goes on at the bay's part (R58, R59, R78). -/
theorem baySteps_goesOn (s : State) (i : RecIdx) (u : Terms) (g : Grant) (ho : s.timer.outstanding = [])
    (hr : (s.bay u.bay).record = some i) (h : s.life i = .granted u g) (hf : s.timer.found.get u.bay = some (s.handle i))
    (hc : (g.boundary u).2 = none) : BaySteps s (s.bayBoundary u.bay) u.bay := by
  have hfr := s.foundRecord_of_held u.bay i hr hf
  have e : s.bayBoundary u.bay = _ := (s.takeOutstanding_eq (.bay u.bay) ho).symm.trans (s.takeOutstanding_bay u.bay i hfr)
  rw [(s.opening u.bay).recordBoundary_goesOn i u g h hc] at e
  have A := s.activates i u g h
  rw [e]
  generalize (s.opening u.bay).become i (.granted u (g.boundary u).1) = m at *
  have hl := Life.stepped_goesOn s.params.retireTimeout u g hc
  have hmr : (m.bay u.bay).record = some i := by
    rw [A.bays, State.bay_opening, if_pos rfl]
    exact hr
  refine ⟨fun j hj => ?_, fun j hj => ?_, ⟨fun _ => ?_, fun hcut => ?_⟩, fun b hb => ?_⟩
  · obtain rfl : i = j := Option.some_inj.mp (hr.symm.trans hj)
    rw [h, hl]
    exact A.life
  · exact A.otherLives j fun e => hj (e ▸ hr)
  · rw [State.limitAfter_eq hr, h, hl, State.bay_modBay_self, State.boundaryLimit, bayLife_eq hmr, A.life, A.bays, State.bay_opening,
      if_pos rfl, A.quiet.timer]
    rfl
  · rw [State.rampCut_iff hr, h] at hcut
    cases hcut
  · rw [State.bay_modBay, if_neg hb, A.bays, State.bay_opening, if_neg hb]

/-- A ramp that is cut short at the bay's part (R21, R74, R76). -/
theorem baySteps_rampEnds (s : State) (i : RecIdx) (u : Terms) (a n : Nat) (c : EndCause) (ho : s.timer.outstanding = [])
    (hr : (s.bay u.bay).record = some i) (h : s.life i = .retiring u a c n) (hf : s.timer.found.get u.bay = some (s.handle i))
    (hn : n ≤ 1) : BaySteps s (s.bayBoundary u.bay) u.bay := by
  have hfr := s.foundRecord_of_held u.bay i hr hf
  have e : s.bayBoundary u.bay = _ := (s.takeOutstanding_eq (.bay u.bay) ho).symm.trans (s.takeOutstanding_bay u.bay i hfr)
  rw [(s.opening u.bay).recordBoundary_rampEnds i u a n c h hn] at e
  have E := (s.opening u.bay).entersSpent i c true u (by rw [show (s.opening u.bay).life i = _ from h]; rfl)
  have hob := s.bay_opening u.bay u.bay
  rw [if_pos rfl] at hob
  rw [e]
  generalize (s.opening u.bay).enterSpent i c true = m at *
  have hb := m.bay_blockBay_self u.bay .forcedOpen
  obtain ⟨hrec, -, -, hen⟩ := E.entry
  have hlim : (m.blockBay u.bay .forcedOpen).boundaryLimit u.bay = 0 := State.boundaryLimit_zero _ _ (by simp [State.bayLife, hb, hrec])
  have hlives : ∀ j, (m.blockBay u.bay .forcedOpen).life j = m.life j := fun j => rfl
  refine ⟨fun j hj => ?_, fun j hj => ?_, ⟨fun hcut => ?_, fun _ => ?_⟩, fun b hb' => ?_⟩
  · obtain rfl : i = j := Option.some_inj.mp (hr.symm.trans hj)
    rw [h, Life.stepped, if_pos hn]
    exact (hlives i).trans E.life
  · exact (hlives j).trans (E.otherLives j fun e => hj (e ▸ hr))
  · refine absurd ?_ hcut
    rw [State.rampCut_iff hr, h]
    exact decide_eq_true hn
  · rw [State.bay_modBay_self, hlim]
    generalize (m.blockBay u.bay .forcedOpen).bay u.bay = y at hb ⊢
    have hEb := E.bay
    have hopen := E.opening
    rw [hob] at hEb hopen
    have hduty : (m.bay u.bay).inEffectDuty = (s.bay u.bay).inEffectDuty := (congrArg Bay.inEffectDuty hEb :)
    have hcount : (m.bay u.bay).closeCount = (s.bay u.bay).closeCount := (congrArg Bay.closeCount hEb :)
    obtain ⟨f1, f2, f3, -, -⟩ := y.setLimit_frame 0
    refine ⟨f1.trans (by rw [hb]; exact hrec), f2.trans (by rw [hb]; exact hen), f3.trans (by rw [hb]), ?_, ?_, fun hc => ?_⟩
    · rw [y.inEffectDuty_setLimit, hb]
      exact hduty
    · rw [y.closeCount_setLimit, hb]
      exact hcount
    · obtain ⟨l1, l2, l3, l4⟩ := hopen hc
      rw [y.setLimit_same 0 (by rw [hb]; exact l1), hb]
      exact ⟨l1, l2, l3, l4⟩
  · rw [State.bay_modBay, if_neg hb', State.blockBay_eq, State.bay_congr (State.bays_raise ..), State.bay_setBay, if_neg hb',
      E.otherBays b hb', State.bay_opening, if_neg hb']

/-- A ramp that goes on at the bay's part (R70). -/
theorem baySteps_rampRuns (s : State) (i : RecIdx) (u : Terms) (a n : Nat) (c : EndCause) (ho : s.timer.outstanding = [])
    (hr : (s.bay u.bay).record = some i) (h : s.life i = .retiring u a c n) (hf : s.timer.found.get u.bay = some (s.handle i))
    (hn : ¬ n ≤ 1) : BaySteps s (s.bayBoundary u.bay) u.bay := by
  have hfr := s.foundRecord_of_held u.bay i hr hf
  have e : s.bayBoundary u.bay = _ := (s.takeOutstanding_eq (.bay u.bay) ho).symm.trans (s.takeOutstanding_bay u.bay i hfr)
  have hob := s.bay_opening u.bay
  have hl : (s.opening u.bay).recordBoundary i = (s.opening u.bay).setLife i (.retiring u a c (n - 1)) := by
    simp only [State.recordBoundary, show (s.opening u.bay).life i = _ from h, if_neg hn]
  have hs : (Life.retiring u a c n).stepped s.params.retireTimeout = .retiring u a c (n - 1) := if_neg hn
  rw [hl] at e
  have hbay : ∀ b, ((s.opening u.bay).setLife i (.retiring u a c (n - 1))).bay b = (s.opening u.bay).bay b := fun b => rfl
  have hmr : (((s.opening u.bay).setLife i (.retiring u a c (n - 1))).bay u.bay).record = some i := by
    rw [hbay, hob, if_pos rfl]
    exact hr
  rw [e]
  refine ⟨fun j hj => ?_, fun j hj => ?_, ⟨fun _ => ?_, fun hcut => ?_⟩, fun b hb => ?_⟩
  · obtain rfl : i = j := Option.some_inj.mp (hr.symm.trans hj)
    rw [h, hs]
    exact State.life_setLife_self _ _ _
  · have hji : j ≠ i := fun e => hj (e ▸ hr)
    exact (State.life_setLife _ _ _ j).trans (if_neg hji)
  · rw [State.limitAfter_eq hr, h, hs, State.bay_modBay_self, State.boundaryLimit, bayLife_eq hmr, State.life_setLife_self, hbay, hob,
      if_pos rfl]
    rfl
  · rw [State.rampCut_iff hr, h] at hcut
    exact absurd (of_decide_eq_true hcut) hn
  · rw [State.bay_modBay, if_neg hb, hbay, hob, if_neg hb]

/-- A bay part whose entry names no record or a WAITING one (R58, R78). -/
theorem baySteps_unloaded (s : State) (b : BayIdx) (hf : s.foundRecord b = none)
    (hl : ∀ i, (s.bay b).record = some i → (s.life i).holdsLoad = false) : BaySteps s (s.bayBoundary b) b := by
  have e := s.bayBoundary_unfound b ((s.foundRecord_modBay b Bay.endGraces rfl).trans hf)
  have hlife : (s.modBay b Bay.endGraces).bayLife b = s.bayLife b := by
    rw [State.bayLife, State.bay_modBay_self]
    rfl
  have hng : (s.bayLife b).map Life.isGranted ≠ some true := fun hg => by
    obtain ⟨l, hb, hg⟩ := Option.map_eq_some_iff.mp hg
    obtain ⟨i, hi, rfl⟩ := Option.map_eq_some_iff.mp hb
    have := hl i hi
    cases h : s.life i <;> simp_all [Life.isGranted, Life.holdsLoad]
  have hz : (s.modBay b Bay.endGraces).boundaryLimit b = 0 := State.boundaryLimit_zero _ b (by rw [hlife]; exact hng)
  have hst : ∀ i, (s.bay b).record = some i → (s.life i).stepped s.params.retireTimeout = s.life i := fun i hi =>
    Life.stepped_unloaded _ _ (hl i hi)
  rw [e, hz]
  refine ⟨fun j hj => (hst j hj).symm, fun j _ => rfl, ⟨fun _ => ?_, fun hcut => ?_⟩, fun c hc => ?_⟩
  · have h0 : s.limitAfter b = 0 := by
      cases hr : (s.bay b).record with
      | none => simp [State.limitAfter, State.bayLife, hr]
      | some i =>
        rw [State.limitAfter_eq hr, hst i hr]
        refine (Life.limitAt_le _ _).2 (Bool.eq_false_iff.mpr fun hg => hng ?_)
        rw [bayLife_eq hr]
        exact congrArg some hg
    rw [State.bay_modBay_self, State.bay_modBay_self, h0]
  · obtain ⟨l, hb, hc⟩ := Option.map_eq_some_iff.mp hcut
    obtain ⟨i, hi, rfl⟩ := Option.map_eq_some_iff.mp hb
    have := hl i hi
    cases h : s.life i <;> simp_all [Life.rampEnds, Life.holdsLoad]
  · rw [State.bay_modBay, if_neg hc, State.bay_modBay, if_neg hc]

/-- Every bay part of a boundary whose entry names a record of the bay, and whose finding stands (R10, R58). -/
theorem bayBoundary_steps (s : State) (b : BayIdx) (ho : s.timer.outstanding = [])
    (hl : ∀ i, (s.bay b).record = some i → ∃ u, (s.life i).liveTerms? = some u ∧ u.bay = b)
    (hf : s.timer.found.get b = s.heldHandle b) : BaySteps s (s.bayBoundary b) b := by
  have held : ∀ i, (s.bay b).record = some i → (s.life i).holdsLoad = true → s.timer.found.get b = some (s.handle i) := fun i hr hh => by
    rw [hf]
    exact (s.heldHandle_eq_some b _).mpr ⟨i, hr, hh, rfl⟩
  by_cases hh : ∃ i, (s.bay b).record = some i ∧ (s.life i).holdsLoad = true
  · obtain ⟨i, hr, hh⟩ := hh
    have hfi := held i hr hh
    obtain ⟨u, hu, rfl⟩ := hl i hr
    cases h : s.life i with
    | granted v g =>
      obtain rfl : v = u := by simpa [h, Life.liveTerms?] using hu
      cases hc : (g.boundary v).2 with
      | some c => exact baySteps_ends s i v g c ho hr h hfi hc
      | none => exact baySteps_goesOn s i v g ho hr h hfi hc
    | retiring v a c n =>
      obtain rfl : v = u := by simpa [h, Life.liveTerms?] using hu
      by_cases hn : n ≤ 1
      · exact baySteps_rampEnds s i v a n c ho hr h hfi hn
      · exact baySteps_rampRuns s i v a n c ho hr h hfi hn
    | _ => simp [h, Life.holdsLoad] at hh
  · refine baySteps_unloaded s b (Option.eq_none_iff_forall_ne_some.mpr fun i hi => hh ?_)
      fun i hr => Bool.eq_false_iff.mpr fun h => hh ⟨i, hr, h⟩
    obtain ⟨-, hi⟩ := (s.foundRecord_eq_some b i).mp hi
    rw [hf] at hi
    obtain ⟨j, hj, hh, -⟩ := (s.heldHandle_eq_some b _).mp hi
    exact ⟨j, hj, hh⟩

/-! ### The bay parts one after another -/

/-- What the bay parts of `done` having been taken leaves. -/
structure BaysStepped (s t : State) (done : List BayIdx) : Prop extends Quiet s t where
  steps : ∀ b i, (s.bay b).record = some i →
    t.life i = if b ∈ done then (s.life i).stepped s.params.retireTimeout else s.life i
  idle : ∀ i, (∀ b, (s.bay b).record ≠ some i) → t.life i = s.life i
  after : ∀ b, b ∈ done → BayAfter s b (t.bay b)
  before : ∀ b, b ∉ done → t.bay b = s.bay b

theorem BaysStepped.nil (s : State) : BaysStepped s s [] where
  toQuiet := .refl s
  steps _ _ _ := (if_neg List.not_mem_nil).symm
  idle _ _ := rfl
  after _ h := absurd h List.not_mem_nil
  before _ _ := rfl

/-- A bay's part looks at its entry, the life of its record, the parameters and the timer. -/
theorem BayAfter.congr {s t : State} {b : BayIdx} {z : Bay} (h : BayAfter t b z) (hb : t.bay b = s.bay b) (hl : t.bayLife b = s.bayLife b)
    (hp : t.params = s.params) (ht : t.timer = s.timer) : BayAfter s b z := by
  have hc : t.RampCut b ↔ s.RampCut b := by rw [State.RampCut, State.RampCut, hl]
  have hn : t.limitAfter b = s.limitAfter b := by rw [State.limitAfter, State.limitAfter, hl, hp, ht]
  refine ⟨fun k => ?_, fun k => ?_⟩
  · rw [← hb, ← hn]
    exact h.kept fun e => k (hc.mp e)
  · rw [← hb]
    exact h.cut (hc.mpr k)

/-- A record is named by one bay (R7). -/
theorem State.BaysExact.unique {s : State} {b c : BayIdx} {i : RecIdx} (h : s.BaysExact) (hb : (s.bay b).record = some i)
    (hc : (s.bay c).record = some i) : b = c := by
  obtain ⟨u, hu, rfl⟩ := h.live hb
  obtain ⟨v, hv, rfl⟩ := h.live hc
  rw [hu] at hv
  cases hv
  rfl

/-- One more bay part taken. -/
theorem BaysStepped.step {s t : State} {done : List BayIdx} (h : BaysStepped s t done) (hB : s.BaysExact)
    (ho : s.timer.outstanding = []) (hf : ∀ b, s.timer.found.get b = s.heldHandle b) (b : BayIdx) (hb : b ∉ done) :
    BaysStepped s (t.bayBoundary b) (done ++ [b]) := by
  have hbay := h.before b hb
  have hlife : ∀ i, (s.bay b).record = some i → t.life i = s.life i := fun i hi => by rw [h.steps b i hi, if_neg hb]
  have hbl : t.bayLife b = s.bayLife b := by
    rw [State.bayLife, State.bayLife, hbay]
    cases hr : (s.bay b).record with
    | none => rfl
    | some i => exact congrArg some (hlife i hr)
  have hheld : t.heldHandle b = s.heldHandle b := by
    rw [State.heldHandle, State.heldHandle, hbay]
    cases hr : (s.bay b).record with
    | none => rfl
    | some i => simp only [Option.filter, hlife i hr, h.handle, Option.map_if]
  have B := bayBoundary_steps t b (by rw [h.timer, ho]) (fun i hi => by
    rw [hbay] at hi
    rw [hlife i hi]
    exact hB.live hi) (by rw [h.timer, hheld, hf])
  refine { toQuiet := h.toQuiet.trans (quiet_bayBoundary t b), steps := fun c i hc => ?_, idle := fun i hi => ?_, after := fun c hc => ?_,
           before := fun c hc => ?_ }
  · by_cases hcb : c = b
    · subst hcb
      rw [B.named i (by rw [hbay]; exact hc), hlife i hc, h.params, if_pos (by simp)]
    · have hn : (t.bay b).record ≠ some i := fun e => hcb (hB.unique hc (hbay ▸ e))
      rw [B.otherLives i hn, h.steps c i hc]
      simp [hcb]
  · rw [B.otherLives i (by rw [hbay]; exact hi b), h.idle i hi]
  · by_cases hcb : c = b
    · subst hcb
      exact B.bay.congr hbay hbl h.params h.timer
    · rw [B.otherBays c hcb]
      exact h.after c (by simpa [hcb] using hc)
  · have hcb : c ≠ b := fun e => hc (by simp [e])
    rw [B.otherBays c hcb]
    exact h.before c fun e => hc (List.mem_append_left _ e)

theorem BaysStepped.all {s : State} (hB : s.BaysExact) (ho : s.timer.outstanding = []) (hf : ∀ b, s.timer.found.get b = s.heldHandle b) :
    ∀ (l done : List BayIdx) (t : State), (done ++ l).Nodup → BaysStepped s t done →
      BaysStepped s (l.foldl State.bayBoundary t) (done ++ l)
  | [], done, t, _, h => by simpa using h
  | b :: l, done, t, hn, h => by
    have hb : b ∉ done := fun hx => (List.nodup_append.mp hn).2.2 b hx b List.mem_cons_self rfl
    have := BaysStepped.all hB ho hf l (done ++ [b]) (t.bayBoundary b) (by simpa using hn) (h.step hB ho hf b hb)
    simpa using this

/-- The 16 bay parts step every record and every bay. -/
theorem baysStepped (s : State) (hB : s.BaysExact) (ho : s.timer.outstanding = []) (hf : ∀ b, s.timer.found.get b = s.heldHandle b) :
    BaysStepped s (allBays.foldl State.bayBoundary s) allBays :=
  BaysStepped.all hB ho hf allBays [] s (List.nodup_finRange 16) (.nil s)

theorem mem_allBays (b : BayIdx) : b ∈ allBays := List.mem_finRange b

/-- A record that no bay names holds no load (R7), so it is stepped to itself. -/
theorem BaysStepped.lives {s t : State} (h : BaysStepped s t allBays) (hB : s.BaysExact) (i : RecIdx) :
    t.life i = (s.life i).stepped s.params.retireTimeout := by
  by_cases hn : ∃ b, (s.bay b).record = some i
  · obtain ⟨b, hb⟩ := hn
    rw [h.steps b i hb, if_pos (mem_allBays b)]
  · rw [h.idle i fun b hb => hn ⟨b, hb⟩, Life.stepped_unloaded]
    refine Bool.eq_false_iff.mpr fun hh => hn ?_
    cases hl : s.life i with
    | granted u g => exact ⟨u.bay, hB.record (by rw [hl]; rfl)⟩
    | retiring u a c n => exact ⟨u.bay, hB.record (by rw [hl]; rfl)⟩
    | _ => simp [hl, Life.holdsLoad] at hh

/-- A record that is GRANTED after the bay parts is the one the boundary found on its bay (R10, R106). -/
theorem BaysStepped.found {s t : State} (h : BaysStepped s t allBays) (hB : s.BaysExact) (hf : ∀ b, s.timer.found.get b = s.heldHandle b)
    {i : RecIdx} {u : Terms} {k : Grant} (hi : t.life i = .granted u k) : t.foundRecord u.bay = some i := by
  rw [h.lives hB] at hi
  obtain ⟨g, hg⟩ := Life.stepped_granted hi
  have hr : (s.bay u.bay).record = some i := hB.record (by rw [hg]; rfl)
  have hcut : ¬ s.RampCut u.bay := by
    rw [State.rampCut_iff hr, hg]
    exact Bool.false_ne_true
  refine t.foundRecord_of_held u.bay i ?_ ?_
  · rw [(h.after u.bay (mem_allBays _)).kept hcut, (Bay.setLimit_frame _ _).1]
    exact hr
  · rw [h.timer, hf, h.handle]
    exact (s.heldHandle_eq_some _ _).mpr ⟨i, hr, by rw [hg]; rfl, rfl⟩

/-- A bay names after the bay parts only what it named before. -/
theorem BaysStepped.record {s t : State} (h : BaysStepped s t allBays) {b : BayIdx} {i : RecIdx} (hr : (t.bay b).record = some i) :
    (s.bay b).record = some i := by
  by_cases hcut : s.RampCut b
  · rw [((h.after b (mem_allBays b)).cut hcut).1] at hr
    cases hr
  · rw [(h.after b (mem_allBays b)).kept hcut, (Bay.setLimit_frame _ _).1] at hr
    exact hr

/-! ### The strike window counts -/

/-- A record after the strike window count of a boundary (R106). -/
def Life.struck (window : Nat) : Life → Life
  | .granted t g => .granted t { g with
      strikes := if g.strikeWindowLeft ≤ 1 then 0 else g.strikes
      strikeWindowLeft := if g.strikeWindowLeft ≤ 1 then window else g.strikeWindowLeft - 1 }
  | l => l

theorem bays_countStrikeWindow (s : State) (b : BayIdx) : (s.countStrikeWindow b).bays = s.bays := by
  unfold State.countStrikeWindow
  split
  · rfl
  · split
    · split <;> rfl
    · rfl

theorem life_countStrikeWindow (s : State) (b : BayIdx) (i : RecIdx) :
    (s.countStrikeWindow b).life i = if s.foundRecord b = some i then (s.life i).struck s.params.strikeWindow else s.life i := by
  unfold State.countStrikeWindow
  cases hf : s.foundRecord b with
  | none => simp
  | some j =>
    dsimp only
    by_cases hij : i = j
    · subst hij
      rw [if_pos rfl]
      cases hl : s.life i with
      | granted t g =>
        dsimp only [Life.struck]
        split
        · rw [State.life_setLife_self]
        · rw [State.life_setLife_self]
      | _ => exact hl
    · rw [if_neg fun e => hij (Option.some_inj.mp e).symm]
      split
      · split
        · rw [State.life_setLife, if_neg hij]
        · rw [State.life_setLife, if_neg hij]
      · rfl

theorem foundRecord_countStrikeWindow (s : State) (b c : BayIdx) : (s.countStrikeWindow b).foundRecord c = s.foundRecord c := by
  have Q := quiet_countStrikeWindow s b
  have hh : ∀ i, (s.countStrikeWindow b).handle i = s.handle i := Q.handle
  simp only [State.foundRecord, State.bay_congr (bays_countStrikeWindow s b), Q.timer, hh]

/-- Strike window counts at bays that find different records count each record found. -/
theorem life_countStrikeWindows (i : RecIdx) : ∀ (l : List BayIdx) (s : State), l.Nodup →
    (∀ b c, s.foundRecord b = some i → s.foundRecord c = some i → b = c) →
    (l.foldl State.countStrikeWindow s).life i =
      if ∃ b ∈ l, s.foundRecord b = some i then (s.life i).struck s.params.strikeWindow else s.life i
  | [], s, _, _ => by simp
  | b :: l, s, hn, hu => by
    obtain ⟨hb, hn⟩ := List.nodup_cons.mp hn
    have ih := life_countStrikeWindows i l (s.countStrikeWindow b) hn fun b' c' h h' =>
      hu b' c' (by rwa [foundRecord_countStrikeWindow] at h) (by rwa [foundRecord_countStrikeWindow] at h')
    rw [List.foldl_cons, ih, life_countStrikeWindow, (quiet_countStrikeWindow s b).params]
    simp only [foundRecord_countStrikeWindow]
    by_cases hf : s.foundRecord b = some i
    · have hl : ¬ ∃ c ∈ l, s.foundRecord c = some i := fun ⟨c, hc, h⟩ => hb (hu b c hf h ▸ hc)
      rw [if_neg hl, if_pos hf, if_pos ⟨b, List.mem_cons_self, hf⟩]
    · simp [hf]

/-- After the bay parts the strike window counts reach every GRANTED record. -/
theorem BaysStepped.struck {s t : State} (h : BaysStepped s t allBays) (hB : s.BaysExact) (hf : ∀ b, s.timer.found.get b = s.heldHandle b)
    (i : RecIdx) : (allBays.foldl State.countStrikeWindow t).life i =
      ((s.life i).stepped s.params.retireTimeout).struck s.params.strikeWindow := by
  have hu : ∀ b c, t.foundRecord b = some i → t.foundRecord c = some i → b = c := fun b c hb hc =>
    hB.unique (h.record ((t.foundRecord_eq_some b i).mp hb).1) (h.record ((t.foundRecord_eq_some c i).mp hc).1)
  rw [life_countStrikeWindows i allBays t (List.nodup_finRange 16) hu, ← h.lives hB, h.params]
  by_cases hex : ∃ b ∈ allBays, t.foundRecord b = some i
  · rw [if_pos hex]
  · rw [if_neg hex]
    cases hl : t.life i with
    | granted u g => exact absurd ⟨u.bay, mem_allBays _, h.found hB hf hl⟩ hex
    | _ => rfl

/-! ### Charge claims, the close window and the settle counts -/

/-- A GRANTED or RETIRING record without what its account has counted (R1, R114). -/
def Life.uncharged : Life → Life
  | .granted t g => .granted { t with charge := 0, residue := 0 } g
  | .retiring t a c n => .retiring { t with charge := 0, residue := 0 } a c n
  | l => l

theorem Terms.eq_of_uncharged {t u : Terms} (h : { t with charge := 0, residue := 0 } = { u with charge := 0, residue := 0 }) :
    t = { u with charge := t.charge, residue := t.residue } :=
  congrArg (fun v : Terms => { v with charge := t.charge, residue := t.residue }) h

theorem Life.uncharged_granted {l : Life} {u : Terms} {g : Grant} (h : l.uncharged = (Life.granted u g).uncharged) :
    ∃ t, t = { u with charge := t.charge, residue := t.residue } ∧ l = .granted t g := by
  cases l <;> simp only [Life.uncharged, reduceCtorEq, Life.granted.injEq] at h
  obtain ⟨ht, rfl⟩ := h
  exact ⟨_, Terms.eq_of_uncharged ht, rfl⟩

theorem Life.uncharged_retiring {l : Life} {u : Terms} {a n : Nat} {c : EndCause}
    (h : l.uncharged = (Life.retiring u a c n).uncharged) :
    ∃ t, t = { u with charge := t.charge, residue := t.residue } ∧ l = .retiring t a c n := by
  cases l <;> simp only [Life.uncharged, reduceCtorEq, Life.retiring.injEq] at h
  obtain ⟨ht, rfl, rfl, rfl⟩ := h
  exact ⟨_, Terms.eq_of_uncharged ht, rfl⟩

theorem Life.uncharged_unloaded {l k : Life} (h : l.uncharged = k.uncharged) (hk : k.holdsLoad = false) : l = k := by
  cases k with
  | granted u g => cases hk
  | retiring u a c n => cases hk
  | _ =>
    cases l with
    | granted u g => cases h
    | retiring u a c n => cases h
    | _ => exact h

/-- Neither the charge nor the strikes of a record enter its limit (R71). -/
theorem Life.limitAt_uncharged (l : Life) (p : Position) : l.uncharged.limitAt p = l.limitAt p := by
  cases l <;> rfl

theorem Life.limitAt_struck (l : Life) (window : Nat) (p : Position) : (l.struck window).limitAt p = l.limitAt p := by
  cases l <;> rfl

/-- A bay's entry with the fields that the blocks of chapters 3 and 4 do not write set to their reset values. -/
def Bay.outputs (y : Bay) : Bay :=
  { Bay.reset with
    record := y.record, enable := y.enable, limit := y.limit, stagedDuty := y.stagedDuty, inEffectDuty := y.inEffectDuty,
    decreaseGrace := y.decreaseGrace, strayGrace := y.strayGrace, closeCount := y.closeCount, blockCause := y.blockCause }

theorem Bay.outputs_eq {y z : Bay} (h : y.outputs = z.outputs) :
    y.record = z.record ∧ y.enable = z.enable ∧ y.limit = z.limit ∧ y.stagedDuty = z.stagedDuty ∧ y.inEffectDuty = z.inEffectDuty ∧
      y.decreaseGrace = z.decreaseGrace ∧ y.strayGrace = z.strayGrace ∧ y.closeCount = z.closeCount ∧ y.blockCause = z.blockCause := by
  simp only [Bay.outputs, Bay.mk.injEq] at h
  tauto

/-- The records stand but for their charges, the outputs of every bay stand, and so does the close window. -/
structure Charges (s t : State) : Prop where
  lives : ∀ i, (t.life i).uncharged = (s.life i).uncharged
  outputs : ∀ b, (t.bay b).outputs = (s.bay b).outputs
  closeWindowLeft : t.closeWindowLeft = s.closeWindowLeft

theorem Charges.refl (s : State) : Charges s s := ⟨fun _ => rfl, fun _ => rfl, rfl⟩

theorem Charges.trans {s t u : State} (h : Charges s t) (k : Charges t u) : Charges s u :=
  ⟨fun i => (k.lives i).trans (h.lives i), fun b => (k.outputs b).trans (h.outputs b), k.closeWindowLeft.trans h.closeWindowLeft⟩

theorem Charges.foldl {α : Type} {f : State → α → State} (hf : ∀ s a, Charges s (f s a)) :
    ∀ (l : List α) (s : State), Charges s (l.foldl f s)
  | [], s => .refl s
  | a :: l, s => (hf s a).trans (Charges.foldl hf l (f s a))

theorem charges_setLife (s : State) (i : RecIdx) (l : Life) (h : l.uncharged = (s.life i).uncharged) : Charges s (s.setLife i l) := by
  refine ⟨fun j => ?_, fun _ => rfl, rfl⟩
  rw [State.life_setLife]
  split
  · subst_vars
    exact h
  · rfl

theorem charges_modBay (s : State) (b : BayIdx) (f : Bay → Bay) (h : (f (s.bay b)).outputs = (s.bay b).outputs) :
    Charges s (s.modBay b f) := by
  refine ⟨fun _ => rfl, fun c => ?_, rfl⟩
  rw [State.bay_modBay]
  split
  · subst_vars
    exact h
  · rfl

theorem charges_chargeRecord (s : State) (i : RecIdx) (m : Nat) : Charges s (s.chargeRecord i m) := by
  unfold State.chargeRecord
  split
  · rename_i h
    exact charges_setLife s i _ (by rw [h]; rfl)
  · rename_i h
    exact charges_setLife s i _ (by rw [h]; rfl)
  · exact .refl s

theorem charges_foldCharge (s : State) (b : BayIdx) : Charges s (s.foldCharge b) := by
  unfold State.foldCharge
  dsimp only
  refine .trans ?_ (charges_modBay _ b _ rfl)
  split
  · split
    · exact .refl s
    · split
      · exact charges_chargeRecord _ _ _
      · exact .refl s
  · exact .refl s

theorem charges_countSettle (s : State) (b : BayIdx) : Charges s (s.countSettle b) := by
  unfold State.countSettle
  split
  · split
    · exact (charges_modBay s b (fun y => { y with calState := .sampling, settleLeft := 0 }) rfl).trans
        ⟨fun _ => rfl, fun _ => rfl, rfl⟩
    · exact charges_modBay s b _ rfl
  · exact .refl s

theorem life_countCloseWindow (s : State) (i : RecIdx) : s.countCloseWindow.life i = s.life i := by
  unfold State.countCloseWindow
  split
  · exact State.life_congr (State.pool_trigger _) i
  · rfl

/-- The close window's end sets every close count to 0 (R87). -/
theorem bay_countCloseWindow (s : State) (b : BayIdx) : s.countCloseWindow.bay b =
    { s.bay b with closeCount := if s.closeWindowLeft ≤ 1 then 0 else (s.bay b).closeCount } := by
  unfold State.countCloseWindow
  split
  · rw [State.bay_congr (State.bays_trigger _), State.bay_modBays]
    rfl
  · rfl

/-! ### The boundary as a whole -/

/-- The timer at a boundary that leaves no part for later (R10, R56, R58). -/
def State.advanced (s : State) : State :=
  { s with timer := s.timer.advance [] (Vector.ofFn s.heldHandle) }

/-- The parts of a boundary that PERIOD_BOUNDARY takes whole, block by block (R58, log 3). -/
theorem State.boundary_whole (s : State) : s.boundary [] =
    allBays.foldl State.countSettle (allBays.foldl State.foldCharge
      (allBays.foldl State.countStrikeWindow (allBays.foldl State.bayBoundary s.advanced))).countCloseWindow := by
  have h : (boundaryParts.filter fun p => !([] : List BoundaryPart).contains p) = boundaryParts :=
    List.filter_eq_self.mpr fun _ _ => rfl
  rw [State.boundary, h]
  simp only [State.takeParts, boundaryParts, List.foldl_append, List.foldl_map, List.foldl_cons, List.foldl_nil, State.takePart]
  rfl

theorem State.outstanding_advanced (s : State) : s.advanced.timer.outstanding = [] := List.filter_eq_nil_iff.mpr fun _ _ => Bool.false_ne_true

theorem State.found_advanced (s : State) (b : BayIdx) : s.advanced.timer.found.get b = s.advanced.heldHandle b := by
  show (Vector.ofFn s.heldHandle).get b = s.heldHandle b
  rw [Vector.get_eq_getElem, Vector.getElem_ofFn]

theorem State.baysStepped_advanced (s : State) (hB : s.BaysExact) :
    BaysStepped s.advanced (allBays.foldl State.bayBoundary s.advanced) allBays :=
  baysStepped s.advanced hB s.outstanding_advanced s.found_advanced

/-- Every record at a whole boundary: its step, its strike window count, and what its charge gains. -/
theorem State.life_boundary (s : State) (hB : s.BaysExact) (i : RecIdx) : ((s.boundary []).life i).uncharged =
    (((s.life i).stepped s.params.retireTimeout).struck s.params.strikeWindow).uncharged := by
  have h := (s.baysStepped_advanced hB).struck hB s.found_advanced i
  rw [s.boundary_whole, (Charges.foldl charges_countSettle _ _).lives, life_countCloseWindow, (Charges.foldl charges_foldCharge _ _).lives, h]
  rfl

theorem bay_countStrikeWindows (b : BayIdx) : ∀ (l : List BayIdx) (s : State), (l.foldl State.countStrikeWindow s).bay b = s.bay b
  | [], _ => rfl
  | c :: l, s => (bay_countStrikeWindows b l _).trans (State.bay_congr (bays_countStrikeWindow s c) b)

/-- Every bay at a whole boundary: its part of it, and its close count by the close window. -/
theorem State.bay_boundary (s : State) (hB : s.BaysExact) (b : BayIdx) : ∃ z, BayAfter s.advanced b z ∧
    ((s.boundary []).bay b).outputs = { z with closeCount := if s.closeWindowLeft ≤ 1 then 0 else z.closeCount }.outputs := by
  have h := s.baysStepped_advanced hB
  refine ⟨_, h.after b (mem_allBays b), ?_⟩
  rw [s.boundary_whole]
  generalize allBays.foldl State.bayBoundary s.advanced = m at h ⊢
  have Q : Quiet m (allBays.foldl State.countStrikeWindow m) := Quiet.foldl quiet_countStrikeWindow _ m
  have hb := bay_countStrikeWindows b allBays m
  generalize allBays.foldl State.countStrikeWindow m = k at Q hb ⊢
  have C := Charges.foldl charges_foldCharge allBays k
  generalize allBays.foldl State.foldCharge k = c at C ⊢
  rw [(Charges.foldl charges_countSettle _ _).outputs, bay_countCloseWindow, C.closeWindowLeft, Q.closeWindowLeft, h.closeWindowLeft, ← hb]
  exact congrArg (fun y : Bay => { y with closeCount := if s.closeWindowLeft ≤ 1 then 0 else y.closeCount }) (C.outputs b)

/-! ### The records at a whole boundary -/

/-- A RETIRING record's account gains its charge, and nothing else of it moves with the strike window. -/
theorem State.retires_boundary (s : State) (hB : s.BaysExact) (i : RecIdx) (u : Terms) (a n : Nat) (c : EndCause)
    (h : (s.life i).stepped s.params.retireTimeout = .retiring u a c n) :
    ∃ u', u' = { u with charge := u'.charge, residue := u'.residue } ∧ (s.boundary []).life i = .retiring u' a c n := by
  have hl := s.life_boundary hB i
  rw [h] at hl
  exact Life.uncharged_retiring hl

theorem State.granted_boundary (s : State) (hB : s.BaysExact) (i : RecIdx) (u : Terms) (g : Grant) (h : s.life i = .granted u g) :
    ∃ u', u' = { u with charge := u'.charge, residue := u'.residue } ∧
      (LeaseRunsOut g ∧ (s.boundary []).life i = .retiring u' g.staged .leaseEnd s.params.retireTimeout ∨
        ¬ LeaseRunsOut g ∧ TaperRunsOut u.taper g ∧ (s.boundary []).life i = .retiring u' g.staged .taperEnd s.params.retireTimeout ∨
        ¬ LeaseRunsOut g ∧ ¬ TaperRunsOut u.taper g ∧ (s.boundary []).life i = .granted u' {
          active := g.staged, staged := g.staged, leaseLeft := g.leaseLeft.map (· - 1)
          taperState := g.taperState.map fun ts => (countTaper u.taper ts).1
          strikes := if g.strikeWindowLeft ≤ 1 then 0 else g.strikes
          strikeWindowLeft := if g.strikeWindowLeft ≤ 1 then s.params.strikeWindow else g.strikeWindowLeft - 1 }) := by
  by_cases hlease : LeaseRunsOut g
  · obtain ⟨u', hu, hl⟩ := s.retires_boundary hB i u _ _ _ (by
      rw [h]
      exact Life.stepped_ends _ u g _ (g.boundary_leaseRunsOut u hlease))
    exact ⟨u', hu, .inl ⟨hlease, hl⟩⟩
  · by_cases htaper : TaperRunsOut u.taper g
    · obtain ⟨u', hu, hl⟩ := s.retires_boundary hB i u _ _ _ (by
        rw [h]
        exact Life.stepped_ends _ u g _ (g.boundary_taperRunsOut u hlease htaper))
      exact ⟨u', hu, .inr (.inl ⟨hlease, htaper, hl⟩)⟩
    · have hb := g.boundary_runs u hlease htaper
      have hl := s.life_boundary hB i
      rw [h, Life.stepped_goesOn _ u g (by rw [hb]), hb] at hl
      obtain ⟨u', hu, hl⟩ := Life.uncharged_granted hl
      exact ⟨u', hu, .inr (.inr ⟨hlease, htaper, hl⟩)⟩

theorem State.retiring_boundary (s : State) (hB : s.BaysExact) (i : RecIdx) (u : Terms) (a n : Nat) (c : EndCause)
    (h : s.life i = .retiring u a c n) : ∃ u', u' = { u with charge := u'.charge, residue := u'.residue } ∧
      (1 < n ∧ (s.boundary []).life i = .retiring u' a c (n - 1) ∨ n ≤ 1 ∧ (s.boundary []).life i = .spent u' c true) := by
  by_cases hn : n ≤ 1
  · have hl := s.life_boundary hB i
    rw [h, Life.stepped, if_pos hn] at hl
    exact ⟨u, rfl, .inr ⟨hn, Life.uncharged_unloaded hl rfl⟩⟩
  · obtain ⟨u', hu, hl⟩ := s.retires_boundary hB i u a (n - 1) c (by
      rw [h]
      exact if_neg hn)
    exact ⟨u', hu, .inl ⟨Nat.lt_of_not_le hn, hl⟩⟩

/-- A record that holds no load stands at a boundary (R58, R114). -/
theorem State.unloaded_boundary (s : State) (hB : s.BaysExact) (i : RecIdx) (h : (s.life i).holdsLoad = false) :
    (s.boundary []).life i = s.life i := by
  have hl := s.life_boundary hB i
  have hs : (s.life i).struck s.params.strikeWindow = s.life i := by cases e : s.life i <;> simp_all [Life.holdsLoad, Life.struck]
  rw [Life.stepped_unloaded _ _ h, hs] at hl
  exact Life.uncharged_unloaded hl h

/-! ### The bays at a whole boundary -/

theorem State.rampCut_iff_exists (s : State) (b : BayIdx) :
    s.RampCut b ↔ ∃ i u a c n, (s.bay b).record = some i ∧ s.life i = .retiring u a c n ∧ n ≤ 1 := by
  constructor
  · intro h
    obtain ⟨l, hl, hr⟩ := Option.map_eq_some_iff.mp h
    obtain ⟨i, hi, rfl⟩ := Option.map_eq_some_iff.mp hl
    cases e : s.life i with
    | retiring u a c n =>
      rw [e] at hr
      exact ⟨i, u, a, c, n, hi, e, of_decide_eq_true hr⟩
    | _ => simp [e, Life.rampEnds] at hr
  · rintro ⟨i, u, a, c, n, hi, e, hn⟩
    rw [State.rampCut_iff hi, e]
    exact decide_eq_true hn

/-- What R74, R76 and R78 to R85 say of a bay after its part of a boundary. -/
structure BayDriven (s : State) (b : BayIdx) (z : Bay) : Prop where
  limit : z.limit = s.limitAfter b
  duty : z.stagedDuty = z.limit * 1000 / 630
  inEffect : z.inEffectDuty = (s.bay b).inEffectDuty
  grace : z.decreaseGrace = if z.limit < (s.bay b).limit then some (s.bay b).limit else none
  stray : z.strayGrace = true ↔ s.RampCut b
  cut : s.RampCut b → z.record = none ∧ z.enable = .opened ∧ z.blockCause = .forcedOpen
  kept : ¬ s.RampCut b → z.record = (s.bay b).record ∧ z.enable = (s.bay b).enable ∧ z.blockCause = (s.bay b).blockCause
  closeCount : z.closeCount = (s.bay b).closeCount

/-- A ramp is cut short under a CLOSED enable at limit 0, and its SPENT record gives none (R75, R80). -/
theorem State.rampCut_outputs {s : State} (hO : s.OutputsExact) {b : BayIdx} (h : s.RampCut b) :
    (s.bay b).enable = .closed ∧ (s.bay b).limit = 0 ∧ s.limitAfter b = 0 := by
  obtain ⟨i, u, a, c, n, hi, e, hn⟩ := (s.rampCut_iff_exists b).mp h
  obtain ⟨h1, -, -, h4⟩ := hO b
  have hl : s.bayLife b = some (.retiring u a c n) := by rw [bayLife_eq hi, e]
  refine ⟨h1.mpr (by rw [hl]; rfl), h4 (by rw [hl]; simp [Life.isGranted]), ?_⟩
  rw [State.limitAfter_eq hi, e, Life.stepped, if_pos hn]
  rfl

/-- With outputs and duties exact before, a bay's part leaves what the spec says of it. -/
theorem BayAfter.driven {s : State} {b : BayIdx} {z : Bay} (h : BayAfter s b z) (hO : s.OutputsExact) (hD : s.DutiesExact) :
    BayDriven s b z := by
  by_cases hc : s.RampCut b
  · obtain ⟨he, hl, hn⟩ := State.rampCut_outputs hO hc
    obtain ⟨h1, h2, h3, h4, h5, h6⟩ := h.cut hc
    obtain ⟨k1, k2, k3, k4⟩ := h6 he
    refine ⟨by rw [k1, hn], by rw [k2, k1], h4, ?_, iff_of_true k4 hc, fun _ => ⟨h1, h2, h3⟩, fun hk => absurd hc hk, h5⟩
    rw [k1, k3, hl]
    rfl
  · have hz := h.kept hc
    obtain ⟨l1, l2, l3⟩ := (s.bay b).endGraces.setLimit_spec (s.limitAfter b)
    obtain ⟨f1, f2, f3, -, f5⟩ := (s.bay b).endGraces.setLimit_frame (s.limitAfter b)
    obtain ⟨-, ho, -, -⟩ := hO b
    rw [hz]
    refine ⟨l1, ?_, (Bay.inEffectDuty_setLimit _ _).trans rfl, ?_, iff_of_false ?_ hc, fun hk => absurd hk hc, fun _ => ⟨f1, f2, f3⟩,
      (Bay.closeCount_setLimit _ _).trans rfl⟩
    · rw [l2, l1]
      split
      · rename_i e
        rw [e]
        exact hD b
      · rfl
    · rw [l3, l1]
      by_cases hlt : s.limitAfter b < (s.bay b).limit
      · have he : (s.bay b).enable = .closed := by
          by_contra hne
          have := (ho (Enable.opened_of_ne hne)).1
          omega
        exact (if_pos ⟨hlt, he⟩).trans (if_pos hlt).symm
      · exact (if_neg fun hk => hlt hk.1).trans (if_neg hlt).symm
    · rw [f5]
      exact Bool.false_ne_true

/-- The limit of a bay after a whole boundary is the one that its record as the boundary leaves it gives, 0 without one (R71, R78). -/
theorem State.limit_boundary (s : State) (hB : s.BaysExact) (b : BayIdx) (z : Bay) (h : BayDriven s.advanced b z) :
    (∀ i, z.record = some i → z.limit = ((s.boundary []).life i).limitAt (s.timer.position + 1)) ∧ (z.record = none → z.limit = 0) := by
  by_cases hc : s.advanced.RampCut b
  · obtain ⟨i, u, a, c, n, hi, e, hn⟩ := (State.rampCut_iff_exists _ b).mp hc
    obtain ⟨hr, -, -⟩ := h.cut hc
    refine ⟨fun j hj => (Option.some_ne_none j (hj.symm.trans hr)).elim, fun _ => ?_⟩
    rw [h.limit, State.limitAfter_eq hi, e, Life.stepped, if_pos hn]
    rfl
  · obtain ⟨hr, -, -⟩ := h.kept hc
    refine ⟨fun i hi => ?_, fun hi => ?_⟩
    · rw [hr] at hi
      rw [h.limit, State.limitAfter_eq hi, ← Life.limitAt_uncharged ((s.boundary []).life i), s.life_boundary hB i, Life.limitAt_uncharged,
        Life.limitAt_struck]
      rfl
    · rw [hr] at hi
      rw [h.limit, State.limitAfter, State.bayLife, hi]
      rfl

end Sys2Proof.Machine

open Sys2Proof Sys2Proof.Machine

/-- Settles O40: each record by its step, its strike window count and its charge claims, each bay by its part and the close window. -/
theorem boundaryTakesRecords : Obligations.BoundaryTakesRecords := by
  intro s hr hm ho hB
  refine ⟨s.boundary [], exec_periodBoundary s [] hr hm ho, ?_, fun i => ?_, fun hO hD b => ?_⟩
  · rw [timer_boundary]
    exact s.outstanding_advanced
  · split
    · rename_i u g h
      obtain ⟨u', hu, hl | hl | ⟨h1, h2, hl⟩⟩ := s.granted_boundary hB i u g h
      · exact ⟨u', hu, .inl hl⟩
      · exact ⟨u', hu, .inr (.inl hl)⟩
      · refine ⟨u', hu, .inr (.inr ⟨h1, h2, _, hl, rfl, rfl, rfl, fun ht => ?_, fun ts ht => ?_, rfl, rfl⟩)⟩
        · rw [ht]
          rfl
        · rw [ht]
          exact ⟨_, rfl, countTaper_counts u.taper ts⟩
    · rename_i u a c n h
      exact s.retiring_boundary hB i u a n c h
    · rename_i hg hr
      refine s.unloaded_boundary hB i ?_
      cases h : s.life i with
      | granted u g => exact absurd h (hg u g)
      | retiring u a c n => exact absurd h (hr u a c n)
      | _ => rfl
  · intro y w cut
    obtain ⟨z, hz, e⟩ := s.bay_boundary hB b
    have D : BayDriven s.advanced b z := hz.driven hO hD
    obtain ⟨hlim, hnone⟩ := s.limit_boundary hB b z D
    have hcut : cut ↔ s.advanced.RampCut b := (s.rampCut_iff_exists b).symm
    obtain ⟨hrec, hen, hl, hduty, heff, hgrace, hstray, hcount, hbl⟩ :
        w.record = z.record ∧ w.enable = z.enable ∧ w.limit = z.limit ∧ w.stagedDuty = z.stagedDuty ∧ w.inEffectDuty = z.inEffectDuty ∧
          w.decreaseGrace = z.decreaseGrace ∧ w.strayGrace = z.strayGrace ∧
          w.closeCount = (if s.closeWindowLeft ≤ 1 then 0 else z.closeCount) ∧ w.blockCause = z.blockCause := Bay.outputs_eq e
    refine ⟨fun i u g hi h => ?_, fun hn => ?_, ?_, heff.trans D.inEffect, ?_, ?_, fun hc => ?_, fun hc => ?_, ?_⟩
    · have hw : w.limit = (Life.granted u g).limitAt (s.timer.position + 1) := by rw [hl, hlim i (hrec ▸ hi), h]
      rw [hw]
      exact ⟨Life.limitAt_off u g _, Life.limitAt_untapered u g _, fun ts st => Life.limitAt_tapered u g _ ts st⟩
    · rw [hl]
      cases hi : z.record with
      | none => exact hnone hi
      | some i =>
        rw [hlim i hi]
        refine (Life.limitAt_le _ _).2 ?_
        cases h : (s.boundary []).life i with
        | granted u g => exact absurd h (hn i u g (hrec.trans hi))
        | _ => rfl
    · rw [hl]
      exact hduty.trans D.duty
    · rw [hl]
      exact hgrace.trans D.grace
    · rw [hcut, ← D.stray, hstray]
    · rw [hrec, hen, hbl]
      exact D.cut (hcut.mp hc)
    · rw [hrec, hen, hbl]
      exact D.kept fun h => hc (hcut.mpr h)
    · rw [hcount, D.closeCount]
      rfl

end

section
/-!
The staged duties, the calibration fields and the pending requests (O59): the relation `Abides` says that each bay keeps its duty and its
calibration fields exact and that the sets of requests stay exact, and every operation, and so every command, abides.
-/
set_option Elab.async false

namespace Sys2Proof.Machine

/-! ### One bay -/

/-- The staged duty is the duty of the limit value (R72, R82). -/
def Bay.Dutied (y : Bay) : Prop :=
  y.stagedDuty = y.limit * 1000 / 630

/-- The offset is in its range, and the counts of a calibration are 0 outside their phases (R116, R122, R123). -/
def Bay.Calibrated (y : Bay) : Prop :=
  (-40 ≤ y.offset ∧ y.offset ≤ 40) ∧ y.samplesTaken ≤ 7 ∧ (y.calState ≠ .settling → y.settleLeft = 0) ∧
    (y.calState ≠ .sampling → y.samplesTaken = 0 ∧ y.sampleSum = 0)

/-- A change of a bay keeps its duty and its calibration fields exact. -/
structure Bay.Abides (y z : Bay) : Prop where
  duty : y.Dutied → z.Dutied
  calibration : y.Calibrated → z.Calibrated

theorem Bay.Abides.refl (y : Bay) : y.Abides y := ⟨id, id⟩

theorem Bay.Abides.trans {x y z : Bay} (h : x.Abides y) (k : y.Abides z) : x.Abides z :=
  ⟨k.duty ∘ h.duty, k.calibration ∘ h.calibration⟩

/-- A change of a bay that leaves its calibration fields. -/
theorem Bay.Abides.uncalibrated {y z : Bay} (duty : y.Dutied → z.Dutied) (offset : z.offset = y.offset := by rfl)
    (calState : z.calState = y.calState := by rfl) (settleLeft : z.settleLeft = y.settleLeft := by rfl)
    (samplesTaken : z.samplesTaken = y.samplesTaken := by rfl) (sampleSum : z.sampleSum = y.sampleSum := by rfl) : y.Abides z := by
  refine ⟨duty, fun h => ?_⟩
  rw [Bay.Calibrated, offset, calState, settleLeft, samplesTaken, sampleSum]
  exact h

/-- A change of a bay that leaves its limit, its staged duty and its calibration fields. -/
theorem Bay.Abides.aside {y z : Bay} (limit : z.limit = y.limit := by rfl) (stagedDuty : z.stagedDuty = y.stagedDuty := by rfl)
    (offset : z.offset = y.offset := by rfl) (calState : z.calState = y.calState := by rfl)
    (settleLeft : z.settleLeft = y.settleLeft := by rfl) (samplesTaken : z.samplesTaken = y.samplesTaken := by rfl)
    (sampleSum : z.sampleSum = y.sampleSum := by rfl) : y.Abides z :=
  .uncalibrated (fun h => by rw [Bay.Dutied, limit, stagedDuty]; exact h) offset calState settleLeft samplesTaken sampleSum

/-- A bay with limit 0 has the duty 0 (R74, R82). -/
theorem Bay.dutied_zero {y : Bay} (limit : y.limit = 0 := by rfl) (stagedDuty : y.stagedDuty = 0 := by rfl) : y.Dutied := by
  rw [Bay.Dutied, limit, stagedDuty]

/-- A limit value that changes brings its duty with it (R82). -/
theorem Bay.abides_setLimit (y : Bay) (n : Nat) : y.Abides (y.setLimit n) := by
  unfold Bay.setLimit
  split
  · exact .refl y
  · exact .uncalibrated fun _ => rfl

/-- An opening sets the limit and the staged duty to 0 together (R74). -/
theorem Bay.abides_openEnable (y : Bay) : y.Abides y.openEnable := by
  unfold Bay.openEnable
  split
  · exact .uncalibrated fun _ => Bay.dutied_zero
  · exact .refl y

/-- A calibration that ends leaves every count at 0 and the offset (R123). -/
theorem Bay.abides_calEnded (y : Bay) (r : CalResult) : y.Abides (y.calEnded r) :=
  ⟨id, fun ⟨ho, _⟩ => ⟨ho, Nat.zero_le 7, fun _ => rfl, fun _ => ⟨rfl, rfl⟩⟩⟩

/-- A calibration starts in SETTLING with no sample taken (R117). -/
theorem Bay.abides_calStarted (y : Bay) (n : Nat) : y.Abides (y.calStarted n) :=
  ⟨id, fun ⟨ho, _⟩ => ⟨ho, Nat.zero_le 7, fun h => absurd rfl h, fun _ => ⟨rfl, rfl⟩⟩⟩

/-- RESTART opens the output and ends the calibration; the offset stands (R126, R159). -/
theorem Bay.abides_restarted (y : Bay) : y.Abides y.restarted :=
  ⟨fun _ => Bay.dutied_zero, fun h => by
    obtain ⟨ho, -⟩ := y.abides_openEnable.calibration h
    exact ⟨ho, Nat.zero_le 7, fun _ => rfl, fun _ => ⟨rfl, rfl⟩⟩⟩

/-! ### The whole state -/

/-- A change keeps the duty and the calibration fields of each bay exact, and the sets of pending requests. -/
structure Abides (s t : State) : Prop where
  bays : ∀ b, (s.bay b).Abides (t.bay b)
  requests : s.RequestsExact → t.RequestsExact

theorem Abides.refl (s : State) : Abides s s := ⟨fun _ => .refl _, id⟩

theorem Abides.trans {s t u : State} (h : Abides s t) (k : Abides t u) : Abides s u :=
  ⟨fun b => (h.bays b).trans (k.bays b), k.requests ∘ h.requests⟩

theorem Abides.foldl {α : Type} {f : State → α → State} (hf : ∀ s a, Abides s (f s a)) :
    ∀ (l : List α) (s : State), Abides s (l.foldl f s)
  | [], s => .refl s
  | a :: l, s => (hf s a).trans (Abides.foldl hf l (f s a))

/-- A change of the bays that leaves the Sampler. -/
theorem Abides.ofBays {s t : State} (bays : ∀ b, (s.bay b).Abides (t.bay b)) (sampler : t.sampler = s.sampler := by rfl) : Abides s t :=
  ⟨bays, fun h => by rw [State.RequestsExact, sampler]; exact h⟩

/-- A change that reaches neither the bays nor the Sampler. -/
theorem Abides.aside {s t : State} (bays : t.bays = s.bays := by rfl) (sampler : t.sampler = s.sampler := by rfl) : Abides s t :=
  .ofBays (fun b => by rw [State.bay_congr bays]; exact .refl _) sampler

/-- A change of the Sampler. -/
theorem abides_sampler (s : State) (m : Sampler) (h : s.RequestsExact → State.RequestsExact { s with sampler := m }) :
    Abides s { s with sampler := m } :=
  ⟨fun _ => .refl _, h⟩

/-- A change of the Sampler that leaves its sets of requests. -/
theorem abides_sampler_aside (s : State) (m : Sampler) (hc : m.calRequests = s.sampler.calRequests)
    (hf : m.confirmRequests = s.sampler.confirmRequests) (hp : m.portRequests = s.sampler.portRequests) :
    Abides s { s with sampler := m } :=
  abides_sampler s m fun h => by
    simp only [State.RequestsExact, hc, hf, hp]
    exact h

theorem abides_modBay (s : State) (b : BayIdx) (f : Bay → Bay) (h : (s.bay b).Abides (f (s.bay b))) : Abides s (s.modBay b f) :=
  .ofBays fun c => by
    rw [State.bay_modBay]
    split
    · subst_vars
      exact h
    · exact .refl _

theorem abides_modBays (s : State) (f : Bay → Bay) (h : ∀ y, Bay.Abides y (f y)) : Abides s (s.modBays f) :=
  .ofBays fun b => by
    rw [State.bay_modBays]
    exact h _

/-! ### Loads, flags and the edit window -/

theorem abides_raise (s : State) (f : Flag) : Abides s (s.raise f) := .aside

theorem abides_trigger (s : State) : Abides s s.trigger := .aside (State.bays_trigger s) (quiet_trigger s).sampler

theorem abides_evaluate (s : State) : Abides s s.evaluate := .aside (State.bays_evaluate s) (quiet_evaluate s).sampler

theorem abides_become (s : State) (i : RecIdx) (l : Life) : Abides s (s.become i l) := by
  refine .aside (State.bays_become s i l) ?_
  unfold State.become
  split
  · exact (quiet_contribute _ _ _ _).sampler
  · rfl

theorem abides_addEvent (s : State) (b : BayIdx) (e : BayEvent) : Abides s (s.addEvent b e) :=
  (abides_modBay s b _ .aside).trans (abides_raise _ _)

theorem abides_markStale (s : State) (i : RecIdx) : Abides s (s.markStale i) :=
  .aside (State.bays_markStale s i) (quiet_markStale s i).sampler

theorem abides_blockBay (s : State) (b : BayIdx) (c : BlockCause) : Abides s (s.blockBay b c) :=
  (abides_modBay s b _ .aside).trans (abides_addEvent _ _ _)

theorem abides_setWaitReason (s : State) (i : RecIdx) (r : WaitReason) : Abides s (s.setWaitReason i r) := .aside

theorem abides_setAllWaitReasons (s : State) (r : WaitReason) : Abides s (s.setAllWaitReasons r) :=
  .aside (State.bays_setAllWaitReasons s r) (State.sampler_setAllWaitReasons s r)

/-! ### Record transitions -/

theorem abides_create (s : State) (i : RecIdx) (rest : List RecIdx) (u : Terms) : Abides s (s.create i rest u) := by
  have C := s.creates i rest u
  refine .ofBays (fun b => ?_) (by rw [C.frame])
  by_cases hb : b = u.bay
  · rw [hb, C.entry]
    exact .aside
  · rw [C.otherBays b hb]
    exact .refl _

theorem abides_leaveBay (s : State) (i : RecIdx) (b : BayIdx) : Abides s (s.leaveBay i b) := by
  have hu : Abides s (s.unlist i) := .aside
  refine ((hu.trans (abides_modBay _ b _ ?_)).trans (abides_addEvent _ _ _)).trans (abides_markStale _ _)
  exact (Bay.abides_openEnable _).trans .aside

theorem abides_enterSpent (s : State) (i : RecIdx) (c : EndCause) (f : Bool) : Abides s (s.enterSpent i c f) := by
  cases h : (s.life i).liveTerms? with
  | none => rw [State.enterSpent_dead s i c f h]; exact .refl s
  | some u => rw [State.enterSpent_live s i c f u h]; exact (abides_become _ _ _).trans (abides_leaveBay _ _ _)

theorem abides_enterRetiring (s : State) (i : RecIdx) (c : EndCause) : Abides s (s.enterRetiring i c) := by
  refine .ofBays (fun b => ?_) (quiet_enterRetiring s i c).sampler
  cases h : s.life i with
  | granted u g =>
    rw [State.bay_enterRetiring s i c u g h]
    split
    · subst_vars
      exact Bay.abides_setLimit _ 0
    · exact .refl _
  | _ => rw [State.enterRetiring_other s i c (by rw [h]; rfl)]; exact .refl _

theorem abides_rampEnd (s : State) (i : RecIdx) : Abides s (s.rampEnd i) := by
  unfold State.rampEnd
  split
  · exact abides_enterSpent _ _ _ _
  · exact .refl s

theorem abides_rampCut (s : State) (i : RecIdx) : Abides s (s.rampCut i) := by
  unfold State.rampCut
  split
  · exact (abides_enterSpent _ _ _ _).trans (abides_blockBay _ _ _)
  · exact .refl s

theorem abides_stage (s : State) (i : RecIdx) (v : Nat) : Abides s (s.stage i v) := by
  unfold State.stage
  split
  · exact abides_become _ _ _
  · exact .refl s

theorem abides_stage_markStale (s : State) (i : RecIdx) (v : Nat) : Abides s ((s.stage i v).markStale i) :=
  (abides_stage _ _ _).trans (abides_markStale _ _)

/-! ### Reclaiming, trip and the effective ceiling -/

theorem abides_reclaimLower (s : State) (i : RecIdx) : Abides s (s.reclaimLower i) := by
  unfold State.reclaimLower
  split
  · split
    · exact abides_stage_markStale _ _ _
    · exact .refl s
  · exact .refl s

theorem abides_reclaimRevoke (s : State) (i : RecIdx) : Abides s (s.reclaimRevoke i) := by
  unfold State.reclaimRevoke
  split
  · split
    · exact abides_enterRetiring _ _ _
    · exact .refl s
  · exact .refl s

theorem abides_reclaimStep (s : State) : Abides s s.reclaimStep :=
  (Abides.foldl abides_reclaimLower _ s).trans (Abides.foldl abides_reclaimRevoke _ _)

/-- A change of the Allocator. -/
theorem abides_alloc (s : State) (a : Allocator) : Abides s { s with alloc := a } := .aside

theorem abides_beginReclaim (s : State) : Abides s s.beginReclaim :=
  (((abides_alloc s _).trans (abides_raise _ _)).trans (abides_setAllWaitReasons _ _)).trans (abides_reclaimStep _)

theorem abides_setEffective (s : State) (n : Nat) : Abides s (s.setEffective n) := by
  have h : Abides s { s with alloc := { s.alloc with effCeiling := n } } := abides_alloc s _
  unfold State.setEffective
  split
  · exact .refl s
  · dsimp only
    split
    · exact (h.trans (abides_evaluate _)).trans (abides_trigger _)
    · split
      · exact h
      · split
        · exact h.trans (abides_reclaimStep _)
        · exact h.trans (abides_beginReclaim _)

theorem abides_tripRecord (s : State) (i : RecIdx) : Abides s (s.tripRecord i) := by
  have h : ∀ l b, Abides s ((s.setLife i l).leaveBay i b) := fun l b => .trans .aside (abides_leaveBay _ _ _)
  unfold State.tripRecord
  split
  · exact h _ _
  · exact h _ _
  · exact .refl s

theorem abides_enterTrip (s : State) : Abides s s.enterTrip := by
  have h : Abides s ((allRecords.foldl State.tripRecord s).modBays Bay.openEnable) :=
    (Abides.foldl abides_tripRecord _ s).trans (abides_modBays _ _ Bay.abides_openEnable)
  have ha : ∀ u : State, Abides u { u with alloc := u.alloc.tripped } := fun u => abides_alloc u _
  unfold State.enterTrip
  dsimp only
  refine (h.trans (ha _)).trans (.trans ?_ ((abides_setAllWaitReasons _ _).trans (abides_raise _ _)))
  split
  · exact abides_raise _ _
  · exact .refl _

theorem abides_takeZone (s : State) (z : Zone) : Abides s (s.takeZone z) := by
  unfold State.takeZone
  split
  · exact (abides_alloc s _).trans (abides_enterTrip _)
  · exact abides_setEffective _ _

theorem abides_deriveZone (s : State) : Abides s s.deriveZone := by
  unfold State.deriveZone
  dsimp only
  split
  · exact .refl s
  · exact .trans .aside (abides_takeZone _ _)

/-! ### Operating state -/

theorem abides_enterWork (s : State) : Abides s s.enterWork := by
  rw [State.enterWork_eq]
  exact abides_alloc s _

theorem abides_holdIfRunning (s : State) : Abides s s.holdIfRunning := by
  unfold State.holdIfRunning
  split
  · exact (abides_alloc s _).trans (abides_setAllWaitReasons _ _)
  · exact .refl s

theorem abides_runIfReleased (s : State) : Abides s s.runIfReleased := by
  unfold State.runIfReleased
  split
  · exact abides_enterWork s
  · exact .refl s

theorem abides_setHoldPort (s : State) : Abides s s.setHoldPort := (abides_alloc s _).trans (abides_holdIfRunning _)
theorem abides_clearHoldPort (s : State) : Abides s s.clearHoldPort := (abides_alloc s _).trans (abides_runIfReleased _)
theorem abides_setHoldClock (s : State) : Abides s s.setHoldClock := (abides_alloc s _).trans (abides_holdIfRunning _)
theorem abides_clearHoldClock (s : State) : Abides s s.clearHoldClock := (abides_alloc s _).trans (abides_runIfReleased _)

/-! ### Changes of a live record -/

theorem abides_applyChange (s : State) (i : RecIdx) (ch : ChangedFields) (c : EditCopy) : Abides s (s.applyChange i ch c) := by
  unfold State.applyChange
  split
  · dsimp only
    split
    · exact .trans .aside (abides_trigger _)
    · exact .aside
  · exact abides_become _ _ _
  · exact .refl s

theorem abides_reloadLease (s : State) (i : RecIdx) : Abides s (s.reloadLease i) := by
  unfold State.reloadLease
  split
  · split
    · exact .refl s
    · exact .aside
  · exact .refl s

/-! ### Sampler requests -/

/-- A raised request joins its set in ascending order; FEED and TEMP have no CALIBRATION channel (R96). -/
theorem abides_requestCalibration (s : State) (b : BayIdx) : Abides s (s.requestCalibration b) := by
  refine abides_sampler s _ fun ⟨_, hf, hp, hb, hm⟩ => ⟨sorted_addChannel _ _, hf, hp, fun c hc => ?_, hm⟩
  rcases (mem_addChannel _ _ _).mp hc with rfl | hc
  · exact b.isLt
  · exact hb c hc

/-- A raised CONFIRM request joins its set in ascending order (R96). -/
theorem abides_requestConfirm (s : State) (c : Channel) (h : c ≤ feedChannel) : Abides s (s.requestConfirm c) := by
  refine abides_sampler s _ fun ⟨hc, _, hp, hb, hm⟩ => ⟨hc, sorted_addChannel _ _, hp, hb, fun d hd => ?_⟩
  rcases (mem_addChannel _ _ _).mp hd with rfl | hd
  · exact h
  · exact hm d hd

theorem abides_requestPort (s : State) (c : Channel) : Abides s (s.requestPort c) :=
  abides_sampler s _ fun ⟨hc, hf, _, hb, hm⟩ => ⟨hc, hf, sorted_addChannel _ _, hb, hm⟩

theorem bayChannel_le_feed (b : BayIdx) : bayChannel b ≤ feedChannel := b.isLt.le

theorem abides_endCalibration (s : State) (b : BayIdx) (r : CalResult) : Abides s (s.endCalibration b r) :=
  ((abides_modBay s b _ (Bay.abides_calEnded _ r)).trans (abides_addEvent _ _ _)).trans (abides_trigger _)

/-! ### The admission pass -/

theorem abides_lowerToFloor (s : State) (i : RecIdx) : Abides s (s.lowerToFloor i) := by
  unfold State.lowerToFloor
  split
  · exact abides_stage_markStale _ _ _
  · exact .refl s

theorem abides_squeeze (s : State) (t : Terms) : Abides s (s.squeeze t) := by
  unfold State.squeeze
  split
  · exact .refl s
  · split
    · exact .refl s
    · split
      · exact Abides.foldl abides_lowerToFloor _ s
      · exact .refl s

theorem abides_admission (s : State) (i : RecIdx) (t : Terms) (g : Nat) : Abides s (s.admission i t g) :=
  ((((abides_become s i _).trans (abides_alloc _ _)).trans (abides_modBay _ t.bay Bay.closeEnable .aside)).trans
    (abides_addEvent _ _ _)).trans (abides_markStale _ i)

theorem abides_walk : ∀ (l : List RecIdx) (s : State), Abides s (State.walk l s).1
  | [], s => .refl s
  | i :: rest, s => by
    unfold State.walk
    split
    · split
      · exact (abides_setWaitReason _ _ _).trans (abides_walk rest _)
      · split
        · exact (abides_admission _ _ _ _).trans (abides_walk rest _)
        · exact (Abides.foldl (fun s j => abides_setWaitReason s j .budget) _ s).trans (abides_squeeze _ _)
    · exact abides_walk rest s

theorem abides_restoreOne (s : State) (i : RecIdx) : Abides s (s.restoreOne i) := by
  unfold State.restoreOne
  split
  · dsimp only
    split
    · exact .refl s
    · exact abides_stage_markStale _ _ _
  · exact .refl s

theorem abides_pass (s : State) : Abides s s.pass := by
  have h : Abides s { s with alloc := { s.alloc with passDue := false } } := abides_alloc s _
  unfold State.pass
  dsimp only
  split
  · exact h.trans (abides_walk _ _)
  · exact (h.trans (abides_walk _ _)).trans (Abides.foldl abides_restoreOne _ _)

end Sys2Proof.Machine
end

section
/-!
The parts of a boundary, the converter's results and every command and event abide, and so every step does (O59).
-/
set_option Elab.async false

namespace Sys2Proof.Machine

/-! ### The parts of a boundary -/

theorem abides_recordBoundary (s : State) (i : RecIdx) : Abides s (s.recordBoundary i) := by
  unfold State.recordBoundary
  split
  · dsimp only
    split
    · exact (abides_become _ _ _).trans (abides_enterRetiring _ _ _)
    · exact abides_become _ _ _
  · split
    · exact abides_rampCut _ _
    · exact .aside
  · exact .refl s

theorem abides_bayBoundary (s : State) (b : BayIdx) : Abides s (s.bayBoundary b) := by
  have h : Abides s (s.modBay b Bay.endGraces) := abides_modBay s b _ .aside
  unfold State.bayBoundary
  dsimp only
  refine Abides.trans ?_ (abides_modBay _ b _ (Bay.abides_setLimit _ _))
  split
  · exact h.trans (abides_recordBoundary _ _)
  · exact h

theorem abides_countStrikeWindow (s : State) (b : BayIdx) : Abides s (s.countStrikeWindow b) := by
  unfold State.countStrikeWindow
  split
  · exact .refl s
  · split
    · split
      · exact .aside
      · exact .aside
    · exact .refl s

theorem abides_chargeRecord (s : State) (i : RecIdx) (m : Nat) : Abides s (s.chargeRecord i m) := by
  unfold State.chargeRecord
  split
  · exact .aside
  · exact .aside
  · exact .refl s

theorem abides_foldCharge (s : State) (b : BayIdx) : Abides s (s.foldCharge b) := by
  unfold State.foldCharge
  dsimp only
  refine Abides.trans ?_ (abides_modBay _ b _ .aside)
  split
  · split
    · exact .refl s
    · split
      · exact abides_chargeRecord _ _ _
      · exact .refl s
  · exact .refl s

theorem abides_countCloseWindow (s : State) : Abides s s.countCloseWindow := by
  unfold State.countCloseWindow
  split
  · refine .trans (.trans ?_ (abides_modBays _ (fun y => { y with closeCount := 0 }) fun y => .aside)) (abides_trigger _)
    exact .aside
  · exact .aside

/-- A settle interval that ends leaves settle remaining 0 as the bay leaves SETTLING (R119). -/
theorem abides_countSettle (s : State) (b : BayIdx) : Abides s (s.countSettle b) := by
  unfold State.countSettle
  split
  · rename_i hc
    split
    · refine (abides_modBay s b _ ⟨id, fun ⟨ho, hn, _, _⟩ => ?_⟩).trans (abides_requestCalibration _ b)
      exact ⟨ho, hn, fun _ => rfl, fun h => absurd rfl h⟩
    · exact abides_modBay s b _ ⟨id, fun ⟨ho, hn, _, hs⟩ => ⟨ho, hn, fun h => absurd hc h, hs⟩⟩
  · exact .refl s

theorem abides_takePart (s : State) (p : BoundaryPart) : Abides s (s.takePart p) := by
  cases p with
  | bay b => exact abides_bayBoundary s b
  | strikes b => exact abides_countStrikeWindow s b
  | charge b => exact abides_foldCharge s b
  | closeWindow => exact abides_countCloseWindow s
  | settle b => exact abides_countSettle s b

theorem abides_takeParts (s : State) (l : List BoundaryPart) : Abides s (s.takeParts l) := Abides.foldl abides_takePart l s

/-- A change of the Period Timer. -/
theorem abides_timer (s : State) (m : Timer) : Abides s { s with timer := m } := .aside

theorem abides_finishBoundary (s : State) : Abides s s.finishBoundary := (abides_timer s _).trans (abides_takeParts _ _)

theorem abides_boundary (s : State) (later : List BoundaryPart) : Abides s (s.boundary later) :=
  (abides_timer s _).trans (abides_takeParts _ _)

theorem abides_takeOutstanding (s : State) (p : BoundaryPart) : Abides s (s.takeOutstanding p) :=
  (abides_timer s _).trans (abides_takePart _ _)

theorem abides_recordEvent (s : State) (i : RecIdx) (due : Life → Bool) : Abides s (s.recordEvent i due) := by
  unfold State.recordEvent
  split
  · split
    · exact abides_takeOutstanding _ _
    · exact .refl s
  · exact .refl s

/-! ### Conversions -/

theorem abides_latest (s : State) (b : BayIdx) (r : Nat) : Abides s (s.latest b r) := abides_modBay s b _ .aside

theorem abides_countCharge (s : State) (b : BayIdx) (r : Nat) : Abides s (s.countCharge b r) := by
  unfold State.countCharge
  split
  · exact .refl s
  · split
    · exact .refl s
    · refine abides_modBay s b _ ?_
      split
      · split
        · exact .refl _
        · exact .aside
      · exact .aside

theorem abides_judgeScan (s : State) (b : BayIdx) (r : Nat) : Abides s (s.judgeScan b r) := by
  unfold State.judgeScan
  split
  · split
    · exact abides_requestConfirm _ _ (bayChannel_le_feed b)
    · exact .refl s
  · split
    · exact abides_rampEnd _ _
    · exact .refl s
  · exact .refl s
  · split
    · exact abides_requestConfirm _ _ (bayChannel_le_feed b)
    · exact .refl s

theorem abides_strike (s : State) (i : RecIdx) : Abides s (s.strike i) := by
  unfold State.strike
  split
  · dsimp only
    split
    · exact .trans .aside (abides_enterRetiring _ _ _)
    · exact .aside
  · exact .refl s

theorem abides_judgeConfirm (s : State) (b : BayIdx) (r : Nat) : Abides s (s.judgeConfirm b r) := by
  unfold State.judgeConfirm
  split
  · split
    · exact abides_strike _ _
    · exact .refl s
  · split
    · exact abides_rampEnd _ _
    · exact .refl s
  · exact .refl s
  · split
    · exact abides_blockBay _ _ _
    · exact .refl s

theorem abides_quietRule (s : State) (b : BayIdx) (r : Nat) : Abides s (s.quietRule b r) := by
  unfold State.quietRule
  split
  · exact abides_endCalibration _ _ _
  · exact .refl s

/-- The eighth result ends a calibration, with an offset in its range where there is a new one (R122). -/
theorem abides_completeCalibration (s : State) (b : BayIdx) (sum : Int) : Abides s (s.completeCalibration b sum) := by
  unfold State.completeCalibration
  split
  · rename_i hm
    refine (abides_modBay s b (fun y => { y with offset := calMean sum }) ⟨id, fun ⟨_, h⟩ => ⟨hm, h⟩⟩).trans ?_
    exact abides_endCalibration _ _ _
  · exact abides_endCalibration _ _ _

/-- A result that leaves the calibration running is at most the seventh (R121). -/
theorem abides_calSample (s : State) (b : BayIdx) (raw : Int) : Abides s (s.calSample b raw) := by
  unfold State.calSample
  split
  · rename_i hc
    split
    · exact abides_endCalibration _ _ _
    · split
      · exact abides_completeCalibration _ _ _
      · rename_i hn
        refine (abides_modBay s b _ ⟨id, fun ⟨ho, h7, hs, _⟩ => ⟨ho, ?_, hs, fun h => absurd hc h⟩⟩).trans
          (abides_requestCalibration _ b)
        show (s.bay b).samplesTaken + 1 ≤ 7
        omega
  · exact .refl s

theorem abides_takeTemp (s : State) (r : Nat) : Abides s (s.takeTemp r) := by
  unfold State.takeTemp
  split
  · exact .trans .aside (abides_deriveZone _)
  · exact .refl s

theorem abides_deliverScan (s : State) (c : Channel) (r : Nat) : Abides s (s.deliverScan c r) := by
  unfold State.deliverScan
  split
  · exact (((abides_latest _ _ _).trans (abides_countCharge _ _ _)).trans (abides_judgeScan _ _ _)).trans (abides_quietRule _ _ _)
  · split
    · split
      · exact abides_requestConfirm _ _ (le_refl _)
      · exact .refl s
    · exact abides_takeTemp _ _

theorem abides_deliverConfirm (s : State) (c : Channel) (r : Nat) : Abides s (s.deliverConfirm c r) := by
  unfold State.deliverConfirm
  split
  · exact (abides_latest _ _ _).trans (abides_judgeConfirm _ _ _)
  · split
    · exact abides_enterTrip _
    · exact .refl s

theorem abides_setHolder (s : State) (c : Channel) (h : Holder) : Abides s (s.setHolder c h) := abides_sampler_aside s _ rfl rfl rfl

theorem abides_deliver (s : State) (v : Conversion) (raw : Int) : Abides s (s.deliver v raw) := by
  unfold State.deliver
  split
  · exact abides_deliverScan _ _ _
  · exact abides_deliverConfirm _ _ _
  · exact abides_setHolder _ _ _
  · split
    · exact abides_calSample _ _ _
    · exact .refl s

theorem abides_converting (s : State) : Abides s s.converting.1 := by
  unfold State.converting
  split
  · exact .refl s
  · exact abides_sampler_aside s _ rfl rfl rfl

/-- The choice takes the head of a set, or of none (R94, R96). -/
theorem abides_nextConversion (s : State) : Abides s s.nextConversion := by
  refine abides_sampler s _ fun ⟨hc, hf, hp, hb, hm⟩ => ?_
  cases ec : s.sampler.calRequests with
  | cons c rest =>
    rw [ec] at hc hb
    simp only [Sampler.choose, ec]
    exact ⟨hc.of_cons, hf, hp, fun d hd => hb d (List.mem_cons_of_mem c hd), hm⟩
  | nil =>
    rw [ec] at hc hb
    cases ef : s.sampler.confirmRequests with
    | cons c rest =>
      rw [ef] at hf hm
      simp only [Sampler.choose, ec, ef]
      exact ⟨hc, hf.of_cons, hp, hb, fun d hd => hm d (List.mem_cons_of_mem c hd)⟩
    | nil =>
      rw [ef] at hf hm
      cases ep : s.sampler.portRequests with
      | cons c rest =>
        rw [ep] at hp
        simp only [Sampler.choose, ec, ef, ep]
        exact ⟨hc, hf, hp.of_cons, hb, hm⟩
      | nil =>
        rw [ep] at hp
        simp only [Sampler.choose, ec, ef, ep, Sampler.beginScan]
        exact ⟨hc, hf, hp, hb, hm⟩

/-! ### Check windows -/

/-- A change of the Clock Monitor. -/
theorem abides_clock (s : State) (c : Clock) : Abides s { s with clock := c } := .aside

theorem abides_judgeFallback (s : State) (good : Bool) : Abides s (s.judgeFallback good) := by
  unfold State.judgeFallback
  split
  · exact .refl s
  · split
    · exact abides_clock s _
    · split
      · exact (abides_clock s _).trans (abides_raise _ _)
      · split
        · exact abides_clock s _
        · exact ((abides_clock s _).trans (abides_raise _ _)).trans (abides_clearHoldClock _)

theorem abides_judgeWindow (s : State) (good : Bool) : Abides s (s.judgeWindow good) := by
  unfold State.judgeWindow
  split
  · split
    · exact abides_clock s _
    · exact .refl s
  · split
    · exact .refl s
    · exact ((abides_clock s _).trans (abides_raise _ _)).trans (abides_setHoldClock _)
  · exact abides_judgeFallback s good

/-! ### Arguments and answers -/

theorem abides_answer (s : State) (c : ReplyCode) (l : List Byte) : Abides s (s.answer c l) := .aside

theorem abides_refuse (s : State) (c : ReplyCode) : Abides s (s.refuse c) := .aside

/-- A step that replies OK after what it does. -/
theorem Abides.ok {s t : State} (h : Abides s t) : Abides s t.ok := h.trans .aside

theorem abides_noArgs (s : State) (args : List Byte) (f : State → State) (h : Abides s (f s)) : Abides s (s.noArgs args f) := by
  unfold State.noArgs
  split
  · exact h
  · exact abides_refuse s _

theorem abides_withHandle (s : State) (v : Nat) (f : RecIdx → State → State) (h : ∀ i, Abides s (f i s)) :
    Abides s (s.withHandle v f) := by
  unfold State.withHandle
  split
  · exact h _
  · exact abides_refuse s _

/-- A command that names a record by its handle. -/
theorem abides_onRecord (s : State) (args : List Byte) (f : RecIdx → State → State) (h : ∀ i, Abides s (f i s)) :
    Abides s (s.handleArg args fun v s => s.withHandle v f) := by
  unfold State.handleArg
  split
  · exact abides_withHandle s _ f h
  · exact abides_refuse s _

theorem abides_bayArg (s : State) (args : List Byte) (f : BayIdx → State → State) (h : ∀ b, Abides s (f b s)) :
    Abides s (s.bayArg args f) := by
  unfold State.bayArg
  split
  · split
    · exact h _
    · exact abides_refuse s _
  · exact abides_refuse s _

theorem abides_channelArg (s : State) (args : List Byte) (f : Channel → State → State) (h : ∀ c, Abides s (f c s)) :
    Abides s (s.channelArg args f) := by
  unfold State.channelArg
  split
  · split
    · exact h _
    · exact abides_refuse s _
  · exact abides_refuse s _

theorem abides_flagMaskArg (s : State) (args : List Byte) (f : Nat → State → State) (h : ∀ m, Abides s (f m s)) :
    Abides s (s.flagMaskArg args f) := by
  unfold State.flagMaskArg
  split
  · exact h _
  · exact abides_refuse s _

/-! ### The Host Port -/

theorem abides_startUp (s : State) : Abides s s.startUp := by
  have h : Abides s ({ s with timer := { Timer.reset with running := true }, closeWindowLeft := s.params.closeWindow }.modBays
      fun y => { y with closeCount := 0 }) := .trans .aside (abides_modBays _ (fun y => { y with closeCount := 0 }) fun y => .aside)
  unfold State.startUp
  dsimp only
  split
  · exact h.trans (abides_enterTrip _)
  · exact h.trans (abides_enterWork _)

theorem abides_shutDown (s : State) : Abides s s.shutDown :=
  ((abides_finishBoundary s).trans .aside).trans (abides_setAllWaitReasons _ _)

/-- RESTART empties the sets of CALIBRATION and CONFIRM requests and restarts every bay (R159). -/
theorem abides_vacated (u : State) : Abides u u.vacated :=
  ⟨fun b => by rw [State.bay_vacated]; exact Bay.abides_restarted _,
    fun ⟨_, _, hp, _, _⟩ => ⟨.nil, .nil, hp, nofun, nofun⟩⟩

theorem abides_restarted (s : State) : Abides s s.restarted := (abides_finishBoundary s).trans (abides_vacated _)

theorem abides_reset (s : State) : Abides s { State.reset with pending := s.pending } := by
  obtain ⟨-, -, -, -, -, -, -, -, -, -, -, hD, -, -, hC, hR⟩ := invariantsHoldAtReset
  exact ⟨fun b => ⟨fun _ => hD b, fun _ => hC b⟩, fun _ => hR⟩

theorem abides_configWrite (s : State) (n v : Nat) : Abides s (s.configWrite n v) := by
  have hp : ∀ p, Abides s { s with params := p } := fun p => .aside
  have hw : Abides s (s.writeParam n v) := by
    unfold State.writeParam
    split
    · exact .refl s
    · dsimp only
      split
      · exact (hp _).trans (abides_deriveZone _)
      · exact hp _
  unfold State.configWrite
  split
  · exact abides_refuse s _
  · split
    · exact abides_refuse s _
    · split
      · exact abides_refuse s _
      · exact hw.ok

theorem abides_setGates (s : State) (mask : Nat) (g : Gate) : Abides s (s.setGates mask g) := by
  have h : Abides s { s with bays := Vector.ofFn fun b => if mask.testBit b.val then { s.bay b with gate := g } else s.bay b } :=
    .ofBays fun b => by
      simp only [State.bay, Vector.get_eq_getElem, Vector.getElem_ofFn]
      split
      · exact .aside
      · exact .refl _
  unfold State.setGates
  dsimp only
  split
  · exact h.trans (abides_trigger _)
  · exact h

theorem abides_allocFor (s : State) (b : BayIdx) (r : Request) : Abides s (s.allocFor b r) := by
  unfold State.allocFor
  split
  · exact abides_refuse s _
  · split
    · exact (abides_raise _ _).trans (abides_refuse _ _)
    · exact (abides_create s _ _ _).trans (abides_answer _ _ _)

theorem abides_retireGraceful (s : State) (i : RecIdx) : Abides s (s.retireGraceful i) := by
  unfold State.retireGraceful
  split
  · exact (abides_enterSpent s _ _ _).ok
  · exact (abides_enterRetiring s _ _).ok
  · exact (Abides.refl s).ok
  · exact abides_refuse s _
  · exact abides_refuse s _

theorem abides_retireImmediate (s : State) (i : RecIdx) : Abides s (s.retireImmediate i) := by
  unfold State.retireImmediate
  split
  · exact (abides_enterSpent s _ _ _).ok
  · exact (abides_enterSpent s _ _ _).ok
  · exact (abides_enterSpent s _ _ _).ok
  · exact abides_refuse s _
  · exact abides_refuse s _

theorem abides_retire (s : State) (args : List Byte) : Abides s (s.retire args) := by
  unfold State.retire
  split
  · split
    · exact abides_withHandle s _ _ (abides_retireGraceful s)
    · split
      · exact abides_withHandle s _ _ (abides_retireImmediate s)
      · exact abides_refuse s _
  · exact abides_refuse s _

theorem abides_reclaimRecord (s : State) (i : RecIdx) (b : BayIdx) : Abides s (s.reclaimRecord i b) := by
  unfold State.reclaimRecord
  dsimp only
  refine .trans (.trans (abides_modBay s b _ ?_) .aside) (abides_markStale _ i)
  split
  · exact .aside
  · exact .refl _

theorem abides_openWindow (s : State) (i : RecIdx) (t : Terms) : Abides s (s.openWindow i t) := by
  unfold State.openWindow
  split
  · exact abides_refuse s _
  · exact .aside

theorem abides_putWindow (s : State) (f : EditWindow → EditWindow) : Abides s (s.putWindow f) := by
  unfold State.putWindow
  split
  · exact .aside
  · exact abides_refuse s _

theorem abides_closeWindow (s : State) : Abides s s.closeWindow := .aside

theorem abides_commitWindow (s : State) (w : EditWindow) : Abides s (s.commitWindow w) := by
  unfold State.commitWindow
  split
  · split
    · exact (abides_closeWindow s).trans (abides_refuse _ _)
    · exact (((abides_applyChange s _ _ _).trans (abides_markStale _ _)).trans (abides_closeWindow _)).ok
  · exact (abides_closeWindow s).trans (abides_refuse _ _)

theorem abides_unblock (s : State) (b : BayIdx) : Abides s (s.unblock b) := by
  unfold State.unblock
  split
  · exact (Abides.refl s).ok
  · split
    · exact abides_refuse s _
    · exact ((abides_modBay s b _ .aside).trans (abides_trigger _)).ok

theorem abides_startCalibration (s : State) (b : BayIdx) : Abides s (s.startCalibration b) :=
  (abides_modBay s b _ (Bay.abides_calStarted _ _)).trans (abides_timer _ _)

theorem abides_clearFlags (s : State) (m : Nat) : Abides s (s.clearFlags m) :=
  .ofBays fun b => by
    simp only [State.clearFlags, State.bay, Vector.get_eq_getElem, Vector.getElem_ofFn]
    split
    · exact .aside
    · exact .refl _

/-! ### The Bay Link -/

theorem abides_endVisit (s : State) (f : Bay → Bay) (h : ∀ y, Bay.Abides y (f y)) : Abides s (s.endVisit f) :=
  (abides_modBay s s.link.position f (h _)).trans .aside

theorem abides_miss (s : State) : Abides s s.miss := by
  unfold State.miss
  split
  · exact .refl s
  · exact abides_endVisit s _ fun _ => .aside

theorem abides_report (s : State) (f : BayIdx → State → State) (hf : ∀ b t, Abides t (f b t)) : Abides s (s.report f) := by
  unfold State.report
  split
  · exact .refl s
  · exact (abides_endVisit s Bay.reported fun _ => .aside).trans (hf _ _)

theorem abides_writeAnswer (s : State) (b : BayIdx) (c : AnswerCode) (h : Nat) : Abides s (s.writeAnswer b c h) :=
  abides_modBay s b _ .aside

theorem abides_withLinkHandle (s : State) (b : BayIdx) (h : Nat) (f : RecIdx → State → State) (hf : ∀ i, Abides s (f i s)) :
    Abides s (s.withLinkHandle b h f) := by
  unfold State.withLinkHandle
  split
  · exact hf _
  · exact abides_writeAnswer _ _ _ _

theorem abides_askFor (s : State) (b : BayIdx) (r : Request) : Abides s (s.askFor b r) := by
  unfold State.askFor
  split
  · exact abides_writeAnswer _ _ _ _
  · split
    · exact abides_writeAnswer _ _ _ _
    · split
      · exact (abides_raise _ _).trans (abides_writeAnswer _ _ _ _)
      · exact (abides_create s _ _ _).trans (abides_writeAnswer _ _ _ _)

theorem abides_changeRecord (s : State) (b : BayIdx) (h : Nat) (i : RecIdx) (c : EditCopy) : Abides s (s.changeRecord b h i c) := by
  unfold State.changeRecord
  split
  · exact abides_writeAnswer _ _ _ _
  · exact ((abides_applyChange s _ _ _).trans (abides_markStale _ _)).trans (abides_writeAnswer _ _ _ _)

theorem abides_takeChange (s : State) (b : BayIdx) (h requested floor : Nat) : Abides s (s.takeChange b h requested floor) := by
  unfold State.takeChange
  split
  · exact abides_writeAnswer _ _ _ _
  · refine abides_withLinkHandle s b h _ fun i => ?_
    split
    · exact abides_writeAnswer _ _ _ _
    · exact abides_changeRecord _ _ _ _ _

end Sys2Proof.Machine
end

section
/-!
Every command and event answers a next state that abides (O59).
-/
set_option Elab.async false

namespace Sys2Proof.Machine

/-- An outcome is a next state that abides. -/
def AbidesNext (s : State) (o : Host.Outcome State Fault Refusal) : Prop :=
  ∃ t, o = .next t ∧ Abides s t

theorem Abides.next {s t : State} (h : Abides s t) : AbidesNext s (.next t) := ⟨t, rfl, h⟩

/-! ### The commands of the Host Port -/

theorem execStart_abides (args : List Byte) (s : State) : AbidesNext s (execStart args s) := by
  refine (abides_noArgs s args _ ?_).next
  split
  · exact (abides_startUp s).ok
  · exact abides_refuse s _

theorem execStop_abides (args : List Byte) (s : State) : AbidesNext s (execStop args s) := by
  refine (abides_noArgs s args _ ?_).next
  split
  · exact (Abides.refl s).ok
  · split
    · exact abides_refuse s _
    · exact (abides_shutDown s).ok

theorem execHoldSet_abides (args : List Byte) (s : State) : AbidesNext s (execHoldSet args s) := by
  refine (abides_noArgs s args _ ?_).next
  refine Abides.ok ?_
  split
  · exact .refl s
  · exact abides_setHoldPort s

theorem execHoldClear_abides (args : List Byte) (s : State) : AbidesNext s (execHoldClear args s) := by
  refine (abides_noArgs s args _ ?_).next
  refine Abides.ok ?_
  split
  · exact abides_clearHoldPort s
  · exact .refl s

theorem execResume_abides (args : List Byte) (s : State) : AbidesNext s (execResume args s) := by
  refine (abides_noArgs s args _ ?_).next
  split
  · exact (abides_enterWork s).ok
  · exact abides_refuse s _

theorem execConfigWrite_abides (args : List Byte) (s : State) : AbidesNext s (execConfigWrite args s) := by
  refine Abides.next ?_
  split
  · exact abides_configWrite s _ _
  · exact abides_refuse s _

theorem execCeilingWrite_abides (args : List Byte) (s : State) : AbidesNext s (execCeilingWrite args s) := by
  refine Abides.next ?_
  split
  · split
    · exact ((abides_alloc s _).trans (abides_setEffective _ _)).ok
    · exact abides_refuse s _
  · exact abides_refuse s _

theorem execBayGate_abides (args : List Byte) (s : State) : AbidesNext s (execBayGate args s) := by
  refine Abides.next ?_
  split
  · split
    · exact (abides_setGates s _ _).ok
    · split
      · exact (abides_setGates s _ _).ok
      · exact abides_refuse s _
  · exact abides_refuse s _

theorem execAlloc_abides (args : List Byte) (s : State) : AbidesNext s (execAlloc args s) := by
  refine Abides.next ?_
  split
  · split
    · split
      · exact abides_allocFor s _ _
      · exact abides_refuse s _
    · exact abides_refuse s _
  · exact abides_refuse s _

theorem execLookupBay_abides (args : List Byte) (s : State) : AbidesNext s (execLookupBay args s) := by
  refine (abides_bayArg s args _ fun b => ?_).next
  split
  · exact abides_answer s _ _
  · exact abides_refuse s _

theorem execReclaim_abides (args : List Byte) (s : State) : AbidesNext s (execReclaim args s) := by
  refine (abides_onRecord s args _ fun i => ?_).next
  split
  · exact (abides_reclaimRecord s _ _).ok
  · exact abides_refuse s _

theorem execRenew_abides (args : List Byte) (s : State) : AbidesNext s (execRenew args s) := by
  refine (abides_onRecord s args _ fun i => ?_).next
  split
  · exact (Abides.refl s).ok
  · exact (abides_reloadLease s i).ok
  · exact abides_refuse s _

theorem execEditOpen_abides (args : List Byte) (s : State) : AbidesNext s (execEditOpen args s) := by
  refine (abides_onRecord s args _ fun i => ?_).next
  split
  · exact abides_openWindow s i _
  · exact abides_openWindow s i _
  · exact abides_refuse s _

theorem execEditPut_abides (args : List Byte) (s : State) : AbidesNext s (execEditPut args s) := by
  refine Abides.next ?_
  split
  · split
    · exact abides_putWindow s _
    · exact abides_refuse s _
  · exact abides_refuse s _

theorem execEditTaper_abides (args : List Byte) (s : State) : AbidesNext s (execEditTaper args s) := by
  refine Abides.next ?_
  split
  · exact abides_putWindow s _
  · exact abides_refuse s _

theorem execEditCommit_abides (args : List Byte) (s : State) : AbidesNext s (execEditCommit args s) := by
  refine (abides_noArgs s args _ ?_).next
  split
  · exact abides_refuse s _
  · split
    · exact (abides_closeWindow s).trans (abides_refuse _ _)
    · split
      · exact (abides_closeWindow s).ok
      · exact abides_commitWindow s _

theorem execEditDrop_abides (args : List Byte) (s : State) : AbidesNext s (execEditDrop args s) := by
  refine (abides_noArgs s args _ ?_).next
  split
  · exact (abides_closeWindow s).ok
  · exact abides_refuse s _

theorem execCalStart_abides (args : List Byte) (s : State) : AbidesNext s (execCalStart args s) := by
  refine (abides_bayArg s args _ fun b => ?_).next
  split
  · exact abides_refuse s _
  · exact (abides_startCalibration s b).ok

theorem execSampleRequest_abides (args : List Byte) (s : State) : AbidesNext s (execSampleRequest args s) := by
  refine (abides_channelArg s args _ fun c => ?_).next
  split
  · exact abides_refuse s _
  · exact ((abides_setHolder s _ _).trans (abides_requestPort _ _)).ok

theorem execClockReturn_abides (arrival : ReturnArrival) (s : State) : AbidesNext s (execClockReturn arrival s) := by
  refine (abides_noArgs s arrival.args _ ?_).next
  split
  · exact abides_refuse s _
  · split
    · exact abides_refuse s _
    · exact (abides_clock s _).ok

/-- A change of the Attention Unit. -/
theorem abides_attention (s : State) (a : Attention) : Abides s { s with attention := a } := .aside

theorem execFlagsRead_abides (args : List Byte) (s : State) : AbidesNext s (execFlagsRead args s) :=
  (abides_noArgs s args _ ((abides_attention s s.attention.see).trans (abides_answer _ _ _))).next

theorem execFlagsClear_abides (args : List Byte) (s : State) : AbidesNext s (execFlagsClear args s) :=
  (abides_flagMaskArg s args _ fun m => (abides_clearFlags s m).ok).next

theorem execFlagsEnable_abides (args : List Byte) (s : State) : AbidesNext s (execFlagsEnable args s) :=
  (abides_flagMaskArg s args _ fun m => (abides_attention s { s.attention with enables := BitVec.ofNat 22 m }).ok).next

/-- A command that only reports. -/
theorem noArgs_answer_abides (s : State) (args : List Byte) (l : State → List Byte) :
    AbidesNext s (.next (s.noArgs args fun s => s.answer .ok (l s))) :=
  (abides_noArgs s args _ (abides_answer s _ _)).next

/-! ### The Bay Link -/

theorem execPollSend_abides (s : State) : AbidesNext s (execPollSend s) := by
  refine Abides.next ?_
  split
  · exact (abides_modBay s s.nextVisit.position (fun y => { y with answer := none }) .aside).trans .aside
  · exact .refl s

theorem execAsk_abides (cls : Byte) (requested floor : Half) (lease mask value : Byte) (s : State) :
    AbidesNext s (execAsk cls requested floor lease mask value s) := by
  refine (abides_report s _ fun b t => ?_).next
  split
  · exact abides_askFor t b _
  · exact abides_writeAnswer _ _ _ _

theorem execLinkRenew_abides (h : Half) (s : State) : AbidesNext s (execLinkRenew h s) := by
  refine (abides_report s _ fun b t => abides_withLinkHandle t b _ _ fun i => ?_).next
  split
  · exact abides_writeAnswer _ _ _ _
  · exact (abides_reloadLease t i).trans (abides_writeAnswer _ _ _ _)

theorem execRelease_abides (h : Half) (s : State) : AbidesNext s (execRelease h s) := by
  refine (abides_report s _ fun b t => abides_withLinkHandle t b _ _ fun i => ?_).next
  split
  · exact (abides_enterSpent t i _ _).trans (abides_writeAnswer _ _ _ _)
  · exact (abides_enterRetiring t i _).trans (abides_writeAnswer _ _ _ _)
  · exact abides_writeAnswer _ _ _ _

/-! ### The part's own events -/

theorem execAdmissionPass_abides (s : State) : AbidesNext s (execAdmissionPass s) := by
  refine Abides.next ?_
  split
  · exact .refl s
  · split
    · exact abides_pass s
    · exact abides_alloc s _

theorem execPeriodBoundary_abides (later : List BoundaryPart) (s : State) : AbidesNext s (execPeriodBoundary later s) := by
  refine Abides.next ?_
  split
  · exact (abides_finishBoundary s).trans (abides_boundary _ _)
  · exact .refl s

theorem execMillisecondTick_abides (s : State) : AbidesNext s (execMillisecondTick s) := by
  refine Abides.next ?_
  split
  · exact (abides_finishBoundary s).trans (abides_timer _ _)
  · exact .refl s

theorem execStrikeWindowEnd_abides (i : RecIdx) (s : State) : AbidesNext s (execStrikeWindowEnd i s) := by
  refine Abides.next ?_
  split
  · split
    · exact abides_takeOutstanding _ _
    · exact .refl s
  · exact .refl s

theorem execCloseWindowEnd_abides (s : State) : AbidesNext s (execCloseWindowEnd s) := by
  refine Abides.next ?_
  split
  · exact abides_takeOutstanding _ _
  · exact .refl s

theorem execSettleEnd_abides (b : BayIdx) (s : State) : AbidesNext s (execSettleEnd b s) := by
  refine Abides.next ?_
  split
  · exact abides_takeOutstanding _ _
  · exact .refl s

theorem execSignalPeriodStart_abides (s : State) : AbidesNext s (execSignalPeriodStart s) :=
  ((abides_modBays s (fun y => { y with inEffectDuty := y.stagedDuty }) fun _ => .aside).trans (abides_clock _ _)).next

theorem execConversionEnd_abides (reading : Reading) (s : State) : AbidesNext s (execConversionEnd reading s) := by
  refine Abides.next ?_
  split
  · exact ((abides_converting s).trans (abides_nextConversion _)).trans (abides_deliver _ _ _)
  · exact ((abides_converting s).trans (abides_deliver _ _ _)).trans (abides_nextConversion _)

theorem execCheckWindowEnd_abides (cycles : Nat) (s : State) : AbidesNext s (execCheckWindowEnd cycles s) :=
  ((abides_clock s _).trans (abides_judgeWindow _ _)).next

/-! ### All of them -/

/-- Every command and event abides. -/
theorem exec_abides (c : Instr) (s : State) : AbidesNext s (exec c s) := by
  cases c with
  | deviceReset => exact (abides_reset s).next
  | start args => exact execStart_abides args s
  | stop args => exact execStop_abides args s
  | restart args => exact (abides_noArgs s args (fun s => s.restarted.ok) (abides_restarted s).ok).next
  | holdSet args => exact execHoldSet_abides args s
  | holdClear args => exact execHoldClear_abides args s
  | resume args => exact execResume_abides args s
  | configWrite args => exact execConfigWrite_abides args s
  | configRead args => exact noArgs_answer_abides s args _
  | ceilingWrite args => exact execCeilingWrite_abides args s
  | bayGate args => exact execBayGate_abides args s
  | alloc args => exact execAlloc_abides args s
  | lookupHandle args => exact (abides_onRecord s args _ fun i => abides_answer s _ _).next
  | lookupBay args => exact execLookupBay_abides args s
  | retireGraceful args => exact (abides_retire s args).next
  | retireImmediate args => exact (abides_retire s args).next
  | reclaim args => exact execReclaim_abides args s
  | renew args => exact execRenew_abides args s
  | editOpen args => exact execEditOpen_abides args s
  | editPut args => exact execEditPut_abides args s
  | editTaper args => exact execEditTaper_abides args s
  | editCommit args => exact execEditCommit_abides args s
  | editDrop args => exact execEditDrop_abides args s
  | queueRead args => exact noArgs_answer_abides s args _
  | orderRead args => exact noArgs_answer_abides s args _
  | loadRead args => exact noArgs_answer_abides s args _
  | bayRead args => exact (abides_bayArg s args _ fun _ => abides_answer s _ _).next
  | bayUnblock args => exact (abides_bayArg s args _ fun b => abides_unblock s b).next
  | calStart args => exact execCalStart_abides args s
  | sampleRequest args => exact execSampleRequest_abides args s
  | sampleRead args => exact (abides_channelArg s args _ fun _ => abides_answer s _ _).next
  | clockReturn arrival => exact execClockReturn_abides arrival s
  | clockRead args => exact noArgs_answer_abides s args _
  | flagsRead args => exact execFlagsRead_abides args s
  | flagsClear args => exact execFlagsClear_abides args s
  | flagsEnable args => exact execFlagsEnable_abides args s
  | identRead args => exact noArgs_answer_abides s args _
  | badCommand code args => exact (abides_refuse s _).next
  | transactionAbort sent => exact Abides.next .aside
  | pollSend => exact execPollSend_abides s
  | replyWindowExpiry => exact (abides_miss s).next
  | badFrame => exact (abides_miss s).next
  | foreignFrame => exact (abides_miss s).next
  | reportNone => exact (abides_report s _ fun _ t => .refl t).next
  | ask cls requested floor lease mask value => exact execAsk_abides cls requested floor lease mask value s
  | change handle requested floor => exact (abides_report s _ fun b t => abides_takeChange t b _ _ _).next
  | linkRenew handle => exact execLinkRenew_abides handle s
  | release handle => exact execRelease_abides handle s
  | admissionPass => exact execAdmissionPass_abides s
  | periodBoundary later => exact execPeriodBoundary_abides later s
  | leaseEnd i => exact (abides_recordEvent s i _).next
  | taperStepAdvance i => exact (abides_recordEvent s i _).next
  | taperEnd i => exact (abides_recordEvent s i _).next
  | rampTimeout i => exact (abides_recordEvent s i _).next
  | strikeWindowEnd i => exact execStrikeWindowEnd_abides i s
  | closeWindowEnd => exact execCloseWindowEnd_abides s
  | settleEnd b => exact execSettleEnd_abides b s
  | signalPeriodStart => exact execSignalPeriodStart_abides s
  | conversionEnd reading => exact execConversionEnd_abides reading s
  | checkWindowEnd cycles => exact execCheckWindowEnd_abides cycles s
  | millisecondTick => exact execMillisecondTick_abides s

/-- Every step abides; the queue is not of these invariants. -/
theorem step_abides {s t : State} (h : step s = .next t) : Abides s t := by
  unfold step at h
  split at h
  · cases h
    exact .refl s
  · rename_i c rest _
    obtain ⟨u, e, a⟩ := exec_abides c { s with pending := rest }
    rw [e] at h
    cases h
    exact .trans .aside a

end Sys2Proof.Machine

open Sys2Proof Sys2Proof.Machine

/-- Settles O59: every step abides, bay by bay and for the sets of requests. -/
theorem dutiesStayExact : Obligations.DutiesStayExact :=
  ⟨fun _ _ h e b => ((step_abides e).bays b).duty (h b), fun _ _ h e b => ((step_abides e).bays b).calibration (h b),
    fun _ _ h e => (step_abides e).requests h⟩

end

section
/-!
The counts of a boundary that end nothing and the charge claim, each taken alone (O44).
-/
set_option Elab.async false

namespace Sys2Proof.Machine

/-! ### A boundary that takes one part -/

theorem mem_boundaryParts (p : BoundaryPart) : p ∈ boundaryParts := by
  cases p <;> simp [boundaryParts, allBays]

theorem nodup_boundaryParts : boundaryParts.Nodup := by decide

/-- With every other part left for later, one part is taken (log 3). -/
theorem boundaryParts_only (p : BoundaryPart) :
    (boundaryParts.filter fun q => !(boundaryParts.filter (· ≠ p)).contains q) = [p] := by
  have h : ∀ q ∈ boundaryParts, (!(boundaryParts.filter (· ≠ p)).contains q) = (q == p) := fun q _ => by
    by_cases hq : q = p <;> simp [hq, mem_boundaryParts]
  rw [List.filter_congr h, List.filter_beq, List.count_eq_one_of_mem nodup_boundaryParts (mem_boundaryParts p)]
  rfl

/-- The state in which a boundary that leaves every other part takes its one part (R10, R56, R58). -/
def State.opened (s : State) (p : BoundaryPart) : State :=
  { s with timer := { s.timer with
      ms := 0, position := s.timer.position + 1, outstanding := boundaryParts.filter (· ≠ p), found := Vector.ofFn s.heldHandle } }

theorem State.boundary_only (s : State) (p : BoundaryPart) :
    s.boundary (boundaryParts.filter (· ≠ p)) = (s.opened p).takePart p := by
  have h : (boundaryParts.filter fun q => (boundaryParts.filter (· ≠ p)).contains q) = boundaryParts.filter (· ≠ p) :=
    List.filter_congr fun q _ => by simp [mem_boundaryParts]
  rw [State.boundary, boundaryParts_only, Timer.advance, h]
  rfl

/-- The boundary finds the GRANTED or RETIRING record of a bay (R10, R58). -/
theorem State.foundRecord_opened (s : State) (p : BoundaryPart) (b : BayIdx) (i : RecIdx) (hr : (s.bay b).record = some i)
    (hl : (s.life i).holdsLoad = true) : (s.opened p).foundRecord b = some i := by
  refine (s.opened p).foundRecord_of_held b i hr ?_
  show (Vector.ofFn s.heldHandle).get b = _
  rw [Vector.get_eq_getElem, Vector.getElem_ofFn]
  exact (s.heldHandle_eq_some b _).mpr ⟨i, hr, hl, rfl⟩

/-! ### The counters that run on -/

theorem State.countStrikeWindow_runs (s : State) (b : BayIdx) (i : RecIdx) (u : Terms) (g : Grant) (hf : s.foundRecord b = some i)
    (h : s.life i = .granted u g) (hn : 1 < g.strikeWindowLeft) :
    s.countStrikeWindow b = s.setLife i (.granted u { g with strikeWindowLeft := g.strikeWindowLeft - 1 }) := by
  simp only [State.countStrikeWindow, hf, h, if_neg (Nat.not_le.mpr hn)]

theorem State.countCloseWindow_runs (s : State) (h : 1 < s.closeWindowLeft) :
    s.countCloseWindow = { s with closeWindowLeft := s.closeWindowLeft - 1 } :=
  if_neg (Nat.not_le.mpr h)

theorem State.countSettle_runs (s : State) (b : BayIdx) (hc : (s.bay b).calState = .settling) (h : 1 < (s.bay b).settleLeft) :
    s.countSettle b = s.setBay b { s.bay b with settleLeft := (s.bay b).settleLeft - 1 } := by
  simp only [State.countSettle, hc, if_neg (Nat.not_le.mpr h), State.modBay_eq]

/-! ### The charge claim -/

theorem State.chargeRecord_granted (s : State) (i : RecIdx) (m : Nat) (u : Terms) (g : Grant) (h : s.life i = .granted u g) :
    s.chargeRecord i m = s.setLife i (.granted (u.charged m s.params.periodLength) g) := by
  simp only [State.chargeRecord, h]

theorem State.chargeRecord_retiring (s : State) (i : RecIdx) (m : Nat) (u : Terms) (a n : Nat) (c : EndCause)
    (h : s.life i = .retiring u a c n) :
    s.chargeRecord i m = s.setLife i (.retiring (u.charged m s.params.periodLength) a c n) := by
  simp only [State.chargeRecord, h]

/-- A charge claim on a record that is neither GRANTED nor RETIRING is dropped (R114). -/
theorem State.chargeRecord_unloaded (s : State) (i : RecIdx) (m : Nat) (h : (s.life i).holdsLoad = false) : s.chargeRecord i m = s := by
  unfold State.chargeRecord
  split
  · simp_all [Life.holdsLoad]
  · simp_all [Life.holdsLoad]
  · rfl

/-- A claim that the sum owner's record takes; the period sum and count return to 0 (R114). -/
theorem State.foldCharge_claimed (s : State) (b : BayIdx) (i : RecIdx) (l : Life) (ho : (s.bay b).sumOwner = some (s.handle i))
    (hc : 0 < (s.bay b).periodCount) (hl : s.chargeRecord i ((s.bay b).periodSum / (s.bay b).periodCount) = s.setLife i l) :
    s.foldCharge b = (s.setLife i l).setBay b { s.bay b with periodSum := 0, periodCount := 0 } := by
  have e : s.foldCharge b = (s.chargeRecord i ((s.bay b).periodSum / (s.bay b).periodCount)).modBay b
      fun y => { y with periodSum := 0, periodCount := 0 } := by
    simp only [State.foldCharge, ho, if_neg hc.ne', s.resolve_handle (s.handle i) i rfl]
  rw [e, hl]
  rfl

/-- Without a sum owner, a count, or a GRANTED or RETIRING record of the sum owner's handle, nothing is claimed (R114). -/
theorem State.foldCharge_unclaimed (s : State) (b : BayIdx) (h : (s.bay b).sumOwner = none ∨ (s.bay b).periodCount = 0 ∨
      ∃ v, (s.bay b).sumOwner = some v ∧ ∀ i, s.handle i = v → (s.life i).holdsLoad = false) :
    s.foldCharge b = s.setBay b { s.bay b with periodSum := 0, periodCount := 0 } := by
  unfold State.foldCharge
  dsimp only
  split
  · rename_i v ho
    split
    · rfl
    · rename_i hc
      split
      · rename_i i hi
        rcases h with h | h | ⟨w, hw, hl⟩
        · exact absurd (ho.symm.trans h) nofun
        · exact absurd h hc
        · rw [ho] at hw
          cases hw
          rw [s.chargeRecord_unloaded i _ (hl i ((s.resolve_iff v i).mp hi).symm)]
          rfl
      · rfl
  · rfl

end Sys2Proof.Machine

open Sys2Proof Sys2Proof.Machine

/-- Settles O44: the boundary with every other part left takes that part, and each part is its count or its claim. -/
theorem boundaryCounts : Obligations.BoundaryCounts := by
  intro s found hr hm ho hf only opened
  have hx : ∀ p t, (s.opened p).takePart p = t → exec (only p) s = .next t := fun p t h => by
    rw [exec_periodBoundary s _ hr hm ho, s.boundary_only, h]
  have ht : ∀ p, s.opened p = { s with timer := opened p } := fun p => by
    rw [State.opened, ← hf.eq]
  refine ⟨fun b i u g hb h hn => hx _ _ ?_, fun h => hx _ _ ?_, fun b hc hn => hx _ _ ?_, fun b i u g hs hc h => hx _ _ ?_,
    fun b i u a c n hs hc h => hx _ _ ?_, fun b h => hx _ _ ?_⟩
  · have hfr := s.foundRecord_opened (.strikes b) b i hb (by rw [h]; rfl)
    rw [ht] at hfr ⊢
    exact State.countStrikeWindow_runs _ b i u g hfr h hn
  · rw [ht]
    exact State.countCloseWindow_runs _ h
  · rw [ht]
    exact State.countSettle_runs _ b hc hn
  · rw [ht]
    exact State.foldCharge_claimed _ b i _ hs hc (State.chargeRecord_granted _ i _ u g h)
  · rw [ht]
    exact State.foldCharge_claimed _ b i _ hs hc (State.chargeRecord_retiring _ i _ u a n c h)
  · rw [ht]
    exact State.foldCharge_unclaimed _ b h

end

section
/-!
The Sampler: the end of a conversion in both orders of delivery and choice, the choice itself, the sets of requests, and what a PORT conversion
delivers (O45).
-/
set_option Elab.async false

namespace Sys2Proof.Machine

/-! ### The end of a conversion, before or after the choice -/

/-- A delivery that, whatever the Sampler holds, writes the same components outside it and changes it by `f`: in both orders of R94 the
state is the same outside the Sampler (log 8). -/
theorem exec_conversionEnd_of_deliver (s t : State) (raw : Int) (late : Bool) (v : Conversion) (f : Sampler → Sampler)
    (hcur : s.sampler.current = some v)
    (hd : ∀ m, State.deliver { s with sampler := m } v raw = { t with sampler := f m }) :
    exec (.conversionEnd ⟨raw, late⟩) s =
      .next { t with sampler := if late then f s.sampler.choose else (f s.sampler).choose } := by
  refine (execConversionEnd_current ⟨raw, late⟩ s v hcur).trans (congrArg Host.Outcome.next ?_)
  cases late with
  | false => exact congrArg State.nextConversion (hd s.sampler)
  | true => exact hd s.sampler.choose

/-- A delivery that leaves the Sampler alone: the choice is the only change there, in both orders. -/
theorem exec_conversionEnd_of_deliver_keeps (s t : State) (raw : Int) (late : Bool) (v : Conversion) (hcur : s.sampler.current = some v)
    (hd : ∀ m, State.deliver { s with sampler := m } v raw = { t with sampler := m }) :
    exec (.conversionEnd ⟨raw, late⟩) s = .next { t with sampler := s.sampler.choose } := by
  rw [exec_conversionEnd_of_deliver s t raw late v id hcur hd]
  cases late <;> rfl

/-- A delivery that is an operation with a property `R` of its outcome, whatever the Sampler holds, and leaves the Sampler alone. -/
theorem exec_conversionEnd_of_operation (s : State) (raw : Int) (late : Bool) (v : Conversion) (op : State → State) (R : State → Prop)
    (hcur : s.sampler.current = some v) (hd : ∀ m, State.deliver { s with sampler := m } v raw = op { s with sampler := m })
    (hop : ∀ m, (op { s with sampler := m }).sampler = m) (hR : ∀ m, R { op { s with sampler := m } with sampler := s.sampler }) :
    ∃ t, R t ∧ exec (.conversionEnd ⟨raw, late⟩) s = .next { t with sampler := s.sampler.choose } := by
  have hexec := execConversionEnd_current ⟨raw, late⟩ s v hcur
  cases late with
  | false =>
    refine ⟨_, hR s.sampler, hexec.trans (congrArg Host.Outcome.next ?_)⟩
    refine (congrArg State.nextConversion (hd s.sampler)).trans ?_
    rw [State.nextConversion, hop]
  | true =>
    refine ⟨_, hR s.sampler.choose, hexec.trans (congrArg Host.Outcome.next ?_)⟩
    refine (hd s.sampler.choose).trans ?_
    exact congrArg (fun m => { op { s with sampler := s.sampler.choose } with sampler := m }) (hop s.sampler.choose)

/-! ### The choice -/

theorem Sampler.choose_calibration (m : Sampler) (c : Channel) (rest : List Channel) (h : m.calRequests = c :: rest) :
    m.choose = { m with calRequests := rest, current := some { kind := .calibration, channel := c } } := by
  simp only [Sampler.choose, h]

theorem Sampler.choose_confirm (m : Sampler) (c : Channel) (rest : List Channel) (h0 : m.calRequests = [])
    (h : m.confirmRequests = c :: rest) :
    m.choose = { m with confirmRequests := rest, current := some { kind := .confirm, channel := c } } := by
  simp only [Sampler.choose, h0, h]

theorem Sampler.choose_port (m : Sampler) (c : Channel) (rest : List Channel) (h0 : m.calRequests = []) (h1 : m.confirmRequests = [])
    (h : m.portRequests = c :: rest) :
    m.choose = { m with portRequests := rest, current := some { kind := .port, channel := c } } := by
  simp only [Sampler.choose, h0, h1, h]

/-- TEMP is followed by B0 (R95). -/
theorem scanAfter_eq (c : Channel) : scanAfter c = if c = 17 then 0 else c + 1 := by
  unfold scanAfter
  split
  · subst c
    rfl
  · rfl

theorem Sampler.beginScan_eq (m : Sampler) :
    m.beginScan = { m with
      scanChannel := if m.scanChannel = 17 then 0 else m.scanChannel + 1
      current := some { kind := .scan, channel := m.scanChannel } } := by
  rw [Sampler.beginScan, scanAfter_eq]

theorem Sampler.choose_scan (m : Sampler) (h0 : m.calRequests = []) (h1 : m.confirmRequests = []) (h2 : m.portRequests = []) :
    m.choose = m.beginScan := by
  simp only [Sampler.choose, h0, h1, h2]

/-- A Sampler with a change of its PORT sample holders. -/
def Sampler.mapHolders (m : Sampler) (f : Vector Holder 18 → Vector Holder 18) : Sampler :=
  { m with holders := f m.holders }

/-- The choice neither looks at the PORT sample holders nor moves them. -/
theorem Sampler.choose_mapHolders (m : Sampler) (f : Vector Holder 18 → Vector Holder 18) :
    m.choose.mapHolders f = (m.mapHolders f).choose := by
  unfold Sampler.mapHolders
  cases hc : m.calRequests with
  | cons c rest => rw [m.choose_calibration c rest hc, Sampler.choose_calibration _ c rest rfl]
  | nil =>
    cases hf : m.confirmRequests with
    | cons c rest => rw [m.choose_confirm c rest hc hf, Sampler.choose_confirm _ c rest rfl rfl, hc]
    | nil =>
      cases hp : m.portRequests with
      | cons c rest => rw [m.choose_port c rest hc hf hp, Sampler.choose_port _ c rest rfl rfl rfl, hc, hf]
      | nil =>
        rw [m.choose_scan hc hf hp, Sampler.choose_scan _ rfl rfl rfl, m.beginScan_eq, Sampler.beginScan_eq, hc, hf, hp]

/-! ### Ascending sets of requests -/

/-- In an ascending set the least channel is the head, and the others are the rest (R94). -/
theorem eq_cons_filter_of_least (c : Channel) (l : List Channel) (hl : l.Pairwise (· < ·)) (hc : c ∈ l) (h : ∀ d ∈ l, c ≤ d) :
    l = c :: l.filter (· ≠ c) := by
  refine List.Pairwise.eq_of_mem_iff hl (List.pairwise_cons.mpr ⟨fun d hd => ?_, hl.filter _⟩) fun d => ?_
  · obtain ⟨hd, hne⟩ := List.mem_filter.mp hd
    exact lt_of_le_of_ne (h d hd) (Ne.symm (of_decide_eq_true hne))
  · by_cases hdc : d = c
    · simp [hdc, hc]
    · simp [hdc]

/-- The set a joining request leaves is the ascending list of its members (R94, R96). -/
theorem addChannel_eq (c : Channel) (l l' : List Channel) (hl : l'.Pairwise (· < ·)) (h : ∀ d, d ∈ l' ↔ d = c ∨ d ∈ l) :
    addChannel c l = l' :=
  List.Pairwise.eq_of_mem_iff (sorted_addChannel c l) hl fun d => (mem_addChannel c d l).trans (h d).symm

/-! ### Results -/

/-- A raw value of a bay's channel in the range of its input stands (R93). -/
theorem rawOf_bayChannel (b : BayIdx) (raw : Int) (h1 : -100 ≤ raw) (h2 : raw ≤ 1100) : rawOf (bayChannel b) raw = raw := by
  have hb : (bayChannel b).val < 16 := b.isLt
  rw [rawOf, if_pos hb, clampInt]
  omega

/-- The result of a bay's channel: the raw value less the bay's offset, held to 0 to 1000 (R93). -/
theorem State.resultOf_bayChannel (s : State) (b : BayIdx) (raw : Int) (h1 : -100 ≤ raw) (h2 : raw ≤ 1100) :
    (s.resultOf (bayChannel b) raw : Int) = max 0 (min 1000 (raw - (s.bay b).offset)) := by
  simp only [State.resultOf, channelBay_bayChannel, rawOf_bayChannel b raw h1 h2, Bay.result, clampInt]
  omega

theorem State.resultOf_feed (s : State) (raw : Int) (h1 : 0 ≤ raw) (h2 : raw ≤ 4000) : (s.resultOf feedChannel raw : Int) = raw := by
  show ((clampInt 0 4000 raw).toNat : Int) = raw
  rw [clampInt]
  omega

theorem State.resultOf_temp (s : State) (raw : Int) (h1 : 0 ≤ raw) (h2 : raw ≤ 63) : (s.resultOf tempChannel raw : Int) = raw := by
  show ((clampInt 0 63 raw).toNat : Int) = raw
  rw [clampInt]
  omega

/-! ### PORT conversions, and the first conversion -/

/-- One holder is replaced (R98). -/
theorem get_holders_set (v : Vector Holder 18) (c d : Channel) (h : Holder) :
    (v.set c.val h c.isLt).get d = if d = c then h else v.get d := by
  simp only [Vector.get_eq_getElem, Vector.getElem_set, Fin.ext_iff, eq_comm]

/-- A PORT result goes to its holder and, with the choice in either order, to nothing else (R97, R98). -/
theorem exec_conversionEnd_port (s : State) (raw : Int) (late : Bool) (c : Channel)
    (hcur : s.sampler.current = some { kind := .port, channel := c }) :
    exec (.conversionEnd ⟨raw, late⟩) s = .next { s with sampler := { s.sampler with
      holders := s.sampler.holders.set c.val { ready := true, result := s.resultOf c raw } c.isLt }.choose } := by
  rw [exec_conversionEnd_of_deliver s s raw late _
    (·.mapHolders fun v => v.set c.val { ready := true, result := s.resultOf c raw } c.isLt) hcur fun _ => rfl,
    Sampler.choose_mapHolders, ite_self]
  rfl

/-- With no conversion in progress, right after device reset, the end is that of a scan of the scan channel (R95, log 8). -/
theorem exec_conversionEnd_first (s : State) (raw : Int) (late : Bool) (h : s.sampler.current = none) :
    exec (.conversionEnd ⟨raw, late⟩) s = exec (.conversionEnd ⟨raw, late⟩) { s with sampler := s.sampler.beginScan } := by
  show execConversionEnd ⟨raw, late⟩ s = execConversionEnd ⟨raw, late⟩ { s with sampler := s.sampler.beginScan }
  rw [execConversionEnd_current _ { s with sampler := s.sampler.beginScan } _ rfl]
  simp only [execConversionEnd, State.converting, h]

end Sys2Proof.Machine

open Sys2Proof Sys2Proof.Machine

/-- Settles O45: the choice by the first set that is not empty, its head as the least member, and the PORT result by its holder. -/
theorem samplerServes : Obligations.SamplerServes := by
  refine ⟨fun m c rest => ⟨m.choose_calibration c rest, m.choose_confirm c rest, m.choose_port c rest, fun h0 h1 h2 => ?_⟩,
    fun m c hcal hconf hport => ⟨fun hc h => ?_, fun h0 hc h => ?_, fun h0 h1 hc h => ?_⟩,
    fun c d l => ⟨mem_addChannel c d l, sorted_addChannel c l⟩,
    fun s raw => ⟨fun b => s.resultOf_bayChannel b raw, s.resultOf_feed raw, s.resultOf_temp raw⟩,
    fun s raw late => ⟨fun c hcur => ⟨_, fun d => get_holders_set _ c d _, exec_conversionEnd_port s raw late c hcur⟩, fun h => ?_⟩⟩
  · rw [m.choose_scan h0 h1 h2, m.beginScan_eq]
  · exact m.choose_calibration c _ (eq_cons_filter_of_least c _ hcal hc h)
  · exact m.choose_confirm c _ h0 (eq_cons_filter_of_least c _ hconf hc h)
  · exact m.choose_port c _ h0 h1 (eq_cons_filter_of_least c _ hport hc h)
  · rw [exec_conversionEnd_first s raw late h, Sampler.beginScan_eq]

end

section
/-!
Draw supervision: what a scan and a CONFIRM result of a bay and of FEED do (O46, O47, O49).
-/
set_option Elab.async false

namespace Sys2Proof.Machine

/-! ### What supervises a bay -/

/-- The bay's entry names no GRANTED or RETIRING record: it names none, or one that waits (R7, R102). -/
def State.Bare (s : State) (b : BayIdx) : Prop :=
  ∀ i, (s.bay b).record = some i → ∃ u w, s.life i = .waiting u w

theorem State.Bare.unloaded {s : State} {b : BayIdx} (h : s.Bare b) (i : RecIdx) (hi : (s.bay b).record = some i) :
    (s.life i).holdsLoad = false := by
  obtain ⟨u, w, hw⟩ := h i hi
  rw [hw]
  rfl

/-- An entry that takes a result names the same record. -/
theorem State.Bare.setBay {s : State} {b : BayIdx} (h : s.Bare b) (y : Bay) (hy : y.record = (s.bay b).record) : (s.setBay b y).Bare b := by
  intro i hi
  rw [State.bay_setBay_self, hy] at hi
  exact h i hi

/-- A GRANTED record supervises its bay (R102, R103). -/
theorem State.watch_granted (s : State) (b : BayIdx) (i : RecIdx) (u : Terms) (g : Grant) (hr : (s.bay b).record = some i)
    (hl : s.life i = .granted u g) : s.watch b = .granted i := by
  simp only [State.watch, hr, hl]

/-- A bare bay is not judged while it is calibrating, blocked or in stray grace, and is judged for stray draw otherwise (R102, R103). -/
theorem State.watch_bare (s : State) (b : BayIdx) (h : s.Bare b) :
    s.watch b =
      if (s.bay b).calState ≠ .idle ∨ (s.bay b).blockCause ≠ .none ∨ (s.bay b).strayGrace = true then .quiet else .stray := by
  cases hr : (s.bay b).record with
  | none => simp only [State.watch, hr]
  | some i =>
    obtain ⟨u, w, hw⟩ := h i hr
    simp only [State.watch, hr, hw]

theorem State.watch_quiet (s : State) (b : BayIdx) (h : s.Bare b)
    (hq : (s.bay b).calState ≠ .idle ∨ (s.bay b).blockCause ≠ .none ∨ (s.bay b).strayGrace = true) : s.watch b = .quiet := by
  rw [s.watch_bare b h, if_pos hq]

theorem State.watch_stray (s : State) (b : BayIdx) (h : s.Bare b) (hc : (s.bay b).calState = .idle)
    (hb : (s.bay b).blockCause = .none) (hg : (s.bay b).strayGrace = false) : s.watch b = .stray := by
  rw [s.watch_bare b h, if_neg]
  simp [hc, hb, hg]

/-! ### A CONFIRM request that a result raises or not -/

/-- A Sampler in which a CONFIRM request of the channel is raised when `p` holds (R96). -/
def Sampler.confirmIf (m : Sampler) (p : Prop) [Decidable p] (c : Channel) : Sampler :=
  if p then { m with confirmRequests := addChannel c m.confirmRequests } else m

/-- The request in both orders of R94: it takes part in the choice, or waits (log 8). -/
theorem Sampler.confirmIf_choose (m : Sampler) (p : Prop) [Decidable p] (c : Channel) (late : Bool) :
    (if late then m.choose.confirmIf p c else (m.confirmIf p c).choose) = if p then confirmRaised late c m else m.choose := by
  unfold Sampler.confirmIf confirmRaised
  by_cases hp : p
  · simp only [if_pos hp]
  · simp only [if_neg hp, ite_self]

/-- A delivery that changes the Sampler by a CONFIRM request alone, raised when `p` holds. -/
theorem exec_conversionEnd_of_confirmIf (s t : State) (raw : Int) (late : Bool) (v : Conversion) (p : Prop) [Decidable p] (c : Channel)
    (hcur : s.sampler.current = some v) (hd : ∀ m, State.deliver { s with sampler := m } v raw = { t with sampler := m.confirmIf p c }) :
    exec (.conversionEnd ⟨raw, late⟩) s =
      .next { t with sampler := if p then confirmRaised late c s.sampler else s.sampler.choose } := by
  rw [← Sampler.confirmIf_choose]
  exact exec_conversionEnd_of_deliver s t raw late v (·.confirmIf p c) hcur hd

theorem State.requestConfirm_if (s : State) (p : Prop) [Decidable p] (c : Channel) :
    (if p then s.requestConfirm c else s) = { s with sampler := s.sampler.confirmIf p c } := by
  unfold Sampler.confirmIf State.requestConfirm
  split <;> rfl

/-! ### The judgment of a scan result -/

/-- Above the limit in force plus the tolerance the GRANTED record's bay is to be confirmed (R102). -/
theorem State.judgeScan_granted (s : State) (b : BayIdx) (r : Nat) (i : RecIdx) (h : s.watch b = .granted i) :
    s.judgeScan b r = { s with
      sampler := s.sampler.confirmIf ((s.bay b).limitInForce + s.params.tolerance < r) (bayChannel b) } := by
  rw [← State.requestConfirm_if]
  simp only [State.judgeScan, h, State.overdraws, decide_eq_true_eq]

/-- Above the rest threshold the ramp runs on (R102). -/
theorem State.judgeScan_retiring (s : State) (b : BayIdx) (r : Nat) (i : RecIdx) (h : s.watch b = .retiring i)
    (hr : s.params.restThreshold < r) : s.judgeScan b r = s := by
  simp only [State.judgeScan, h, if_neg (Nat.not_le.mpr hr)]

theorem State.judgeScan_quiet (s : State) (b : BayIdx) (r : Nat) (h : s.watch b = .quiet) : s.judgeScan b r = s := by
  simp only [State.judgeScan, h]

/-- Above the stray threshold a bay without a record that supervises it is to be confirmed (R102, R108). -/
theorem State.judgeScan_stray (s : State) (b : BayIdx) (r : Nat) (h : s.watch b = .stray) :
    s.judgeScan b r = { s with sampler := s.sampler.confirmIf (s.params.strayThreshold < r) (bayChannel b) } := by
  rw [← State.requestConfirm_if]
  simp only [State.judgeScan, h]

/-- The quiet rule is for a SETTLING bay only (R120). -/
theorem State.quietRule_of_not_settling (s : State) (b : BayIdx) (r : Nat) (h : (s.bay b).calState ≠ .settling) : s.quietRule b r = s :=
  if_neg fun ⟨hs, _⟩ => h hs

/-! ### A scan result of a bay -/

theorem scanned_limitInForce (s : State) (b : BayIdx) (i : RecIdx) (r : Nat) :
    (scanned s b i r).limitInForce = (s.bay b).limitInForce := by
  unfold scanned
  dsimp only
  split
  · split <;> rfl
  · rfl

/-- A scan result under a record that holds load is judged with the bay's charge counted (R97, R101, R113). -/
theorem State.deliver_scan_held (s : State) (b : BayIdx) (raw : Int) (i : RecIdx) (hr : (s.bay b).record = some i)
    (hl : (s.life i).holdsLoad = true) :
    s.deliver { kind := .scan, channel := bayChannel b } raw =
      ((s.setBay b (scanned s b i (s.resultOf (bayChannel b) raw))).judgeScan b (s.resultOf (bayChannel b) raw)).quietRule b
        (s.resultOf (bayChannel b) raw) := by
  simp only [State.deliver, State.deliverScan, channelBay_bayChannel]
  rw [s.countCharge_held b _ i hr hl]
  rfl

/-- A scan result of a bare bay is judged with the latest sample taken and nothing counted (R97, R101, R113). -/
theorem State.deliver_scan_bare (s : State) (b : BayIdx) (raw : Int) (h : s.Bare b) :
    s.deliver { kind := .scan, channel := bayChannel b } raw =
      ((s.setBay b { s.bay b with latestSample := s.resultOf (bayChannel b) raw }).judgeScan b
        (s.resultOf (bayChannel b) raw)).quietRule b (s.resultOf (bayChannel b) raw) := by
  simp only [State.deliver, State.deliverScan, channelBay_bayChannel]
  rw [s.countCharge_bare b _ h.unloaded]

/-- A judgment that touches no bay is the whole of what follows a sample taken on a bay that is not SETTLING. -/
theorem State.quietRule_judged (s : State) (b : BayIdx) (y : Bay) (m : Sampler) (r : Nat) (h : y.calState ≠ .settling) :
    State.quietRule { s.setBay b y with sampler := m } b r = { s.setBay b y with sampler := m } :=
  State.quietRule_of_not_settling _ b r fun hs => h ((congrArg Bay.calState (s.bay_setBay_self b y)).symm.trans hs)

theorem State.deliver_scan_granted (s : State) (b : BayIdx) (raw : Int) (i : RecIdx) (u : Terms) (g : Grant)
    (hr : (s.bay b).record = some i) (hl : s.life i = .granted u g) (hc : (s.bay b).calState = .idle) :
    s.deliver { kind := .scan, channel := bayChannel b } raw =
      { s.setBay b (scanned s b i (s.resultOf (bayChannel b) raw)) with
        sampler := s.sampler.confirmIf ((s.bay b).limitInForce + s.params.tolerance < s.resultOf (bayChannel b) raw) (bayChannel b) } := by
  obtain ⟨f1, f2⟩ := scanned_frame s b i (s.resultOf (bayChannel b) raw)
  have f3 := scanned_limitInForce s b i (s.resultOf (bayChannel b) raw)
  rw [s.deliver_scan_held b raw i hr (by rw [hl]; rfl)]
  generalize scanned s b i (s.resultOf (bayChannel b) raw) = y at f1 f2 f3 ⊢
  have hw : (s.setBay b y).watch b = .granted i :=
    State.watch_granted _ b i u g (by rw [State.bay_setBay_self, f1, hr]) hl
  rw [State.judgeScan_granted _ b _ i hw, s.quietRule_judged b y _ _ (by rw [f2, hc]; exact nofun), State.bay_setBay_self, f3]
  rfl

theorem State.deliver_scan_retiring (s : State) (b : BayIdx) (raw : Int) (i : RecIdx) (u : Terms) (a n : Nat) (c : EndCause)
    (hr : (s.bay b).record = some i) (hl : s.life i = .retiring u a c n) (hc : (s.bay b).calState = .idle)
    (h : s.params.restThreshold < s.resultOf (bayChannel b) raw) :
    s.deliver { kind := .scan, channel := bayChannel b } raw = s.setBay b (scanned s b i (s.resultOf (bayChannel b) raw)) := by
  obtain ⟨f1, f2⟩ := scanned_frame s b i (s.resultOf (bayChannel b) raw)
  rw [s.deliver_scan_held b raw i hr (by rw [hl]; rfl)]
  generalize scanned s b i (s.resultOf (bayChannel b) raw) = y at f1 f2 ⊢
  have hw : (s.setBay b y).watch b = .retiring i :=
    State.watch_retiring _ b i u a n c (by rw [State.bay_setBay_self, f1, hr]) hl
  rw [State.judgeScan_retiring _ b _ i hw h]
  exact s.quietRule_judged b y s.sampler _ (by rw [f2, hc]; exact nofun)

theorem State.deliver_scan_stray (s : State) (b : BayIdx) (raw : Int) (h : s.Bare b) (hc : (s.bay b).calState = .idle)
    (hb : (s.bay b).blockCause = .none) (hg : (s.bay b).strayGrace = false) :
    s.deliver { kind := .scan, channel := bayChannel b } raw =
      { s.setBay b { s.bay b with latestSample := s.resultOf (bayChannel b) raw } with
        sampler := s.sampler.confirmIf (s.params.strayThreshold < s.resultOf (bayChannel b) raw) (bayChannel b) } := by
  have hw : (s.setBay b { s.bay b with latestSample := s.resultOf (bayChannel b) raw }).watch b = .stray := by
    refine State.watch_stray _ b (h.setBay _ rfl) ?_ ?_ ?_ <;> rwa [State.bay_setBay_self]
  rw [s.deliver_scan_bare b raw h, State.judgeScan_stray _ b _ hw]
  exact s.quietRule_judged b _ _ _ (by rw [hc]; exact nofun)

/-- A bare bay that is calibrating, blocked or in stray grace is not judged; what is left is the quiet rule (R102, R120). -/
theorem State.deliver_scan_unjudged (s : State) (b : BayIdx) (raw : Int) (h : s.Bare b)
    (hq : (s.bay b).calState ≠ .idle ∨ (s.bay b).blockCause ≠ .none ∨ (s.bay b).strayGrace = true) :
    s.deliver { kind := .scan, channel := bayChannel b } raw =
      (s.setBay b { s.bay b with latestSample := s.resultOf (bayChannel b) raw }).quietRule b (s.resultOf (bayChannel b) raw) := by
  have hw : (s.setBay b { s.bay b with latestSample := s.resultOf (bayChannel b) raw }).watch b = .quiet :=
    State.watch_quiet _ b (h.setBay _ rfl) (by rwa [State.bay_setBay_self])
  rw [s.deliver_scan_bare b raw h, State.judgeScan_quiet _ b _ hw]

/-! ### A CONFIRM result of a bay -/

/-- A CONFIRM result is judged with the latest sample taken (R97, R101). -/
theorem State.deliver_confirm (s : State) (b : BayIdx) (raw : Int) :
    s.deliver { kind := .confirm, channel := bayChannel b } raw =
      (s.setBay b { s.bay b with latestSample := s.resultOf (bayChannel b) raw }).judgeConfirm b (s.resultOf (bayChannel b) raw) := by
  simp only [State.deliver, State.deliverConfirm, channelBay_bayChannel]
  rfl

/-- Below the strike limit a strike is counted; at it the record enters RETIRING with OVERDRAW (R104, R105). -/
theorem State.strike_granted (s : State) (i : RecIdx) (u : Terms) (g : Grant) (h : s.life i = .granted u g) :
    s.strike i =
      if g.strikes + 1 = s.params.strikeLimit then
        (s.setLife i (.granted u { g with strikes := g.strikes + 1 })).enterRetiring i .overdraw
      else s.setLife i (.granted u { g with strikes := g.strikes + 1 }) := by
  simp only [State.strike, h]

/-- A CONFIRM result under a GRANTED record: a strike above the limit in force plus the tolerance (R103, R104). -/
theorem State.deliver_confirm_granted (s : State) (b : BayIdx) (raw : Int) (i : RecIdx) (u : Terms) (g : Grant)
    (hr : (s.bay b).record = some i) (hl : s.life i = .granted u g) :
    s.deliver { kind := .confirm, channel := bayChannel b } raw =
      if (s.bay b).limitInForce + s.params.tolerance < s.resultOf (bayChannel b) raw then
        (s.setBay b { s.bay b with latestSample := s.resultOf (bayChannel b) raw }).strike i
      else s.setBay b { s.bay b with latestSample := s.resultOf (bayChannel b) raw } := by
  have hw : (s.setBay b { s.bay b with latestSample := s.resultOf (bayChannel b) raw }).watch b = .granted i :=
    State.watch_granted _ b i u g (by rw [State.bay_setBay_self, hr]) hl
  simp only [s.deliver_confirm, State.judgeConfirm, hw, State.overdraws, State.bay_setBay_self, State.params_setBay, decide_eq_true_eq]
  rfl

/-- A CONFIRM result of a bare bay: one that is calibrating, blocked or in stray grace is not judged, and any other is blocked with STRAY
above the stray threshold (R103, R109). -/
theorem State.deliver_confirm_bare (s : State) (b : BayIdx) (raw : Int) (h : s.Bare b) :
    s.deliver { kind := .confirm, channel := bayChannel b } raw =
      if (s.bay b).calState = .idle ∧ (s.bay b).blockCause = .none ∧ (s.bay b).strayGrace = false ∧
          s.params.strayThreshold < s.resultOf (bayChannel b) raw then
        (s.setBay b { s.bay b with latestSample := s.resultOf (bayChannel b) raw }).blockBay b .stray
      else s.setBay b { s.bay b with latestSample := s.resultOf (bayChannel b) raw } := by
  have hw := State.watch_bare (s.setBay b { s.bay b with latestSample := s.resultOf (bayChannel b) raw }) b (h.setBay _ rfl)
  rw [State.bay_setBay_self] at hw
  rw [s.deliver_confirm, State.judgeConfirm, hw]
  by_cases hq : (s.bay b).calState ≠ .idle ∨ (s.bay b).blockCause ≠ .none ∨ (s.bay b).strayGrace = true
  · rw [if_pos hq]
    refine (if_neg ?_).symm
    rintro ⟨hc, hb, hg, -⟩
    simp [hc, hb, hg] at hq
  · rw [if_neg hq]
    obtain ⟨hc, hb, hg⟩ : (s.bay b).calState = .idle ∧ (s.bay b).blockCause = .none ∧ (s.bay b).strayGrace = false := by
      simpa using hq
    simp only [hc, hb, hg, true_and, State.params_setBay]

/-- Entry into RETIRING does not look at the Sampler. -/
theorem EntersRetiring.sampler {s t : State} {i : RecIdx} {u : Terms} {g : Grant} {c : EndCause} {m : Sampler}
    (E : EntersRetiring { s with sampler := m } t i u g c) : EntersRetiring s { t with sampler := s.sampler } i u g c :=
  ⟨E.life, E.otherLives, E.generations, E.freeList, E.waitQueue, E.grantOrder, E.loads, E.reclaiming, E.reclaimFlag, E.passDue, E.limit,
    E.grace, E.bay, E.otherBays, E.otherFlags, E.window, E.staleFlag, congrArg (fun x : State => { x with sampler := s.sampler }) E.frame⟩

/-! ### FEED -/

/-- R111, R112: the effective ceiling plus the feed margin is the bound, and only in RUNNING and HOLD. -/
theorem State.feedOver_iff (s : State) (r : Nat) : s.feedOver r = true ↔
    (s.alloc.opState = .running ∨ s.alloc.opState = .hold) ∧ s.alloc.effCeiling + s.params.feedMargin < r := by
  simp [State.feedOver]

theorem State.deliver_scan_feed (s : State) (raw : Int) :
    s.deliver { kind := .scan, channel := feedChannel } raw =
      { s with sampler := s.sampler.confirmIf (s.feedOver (s.resultOf feedChannel raw) = true) feedChannel } := by
  rw [← State.requestConfirm_if]
  rfl

theorem State.deliver_confirm_feed (s : State) (raw : Int) :
    s.deliver { kind := .confirm, channel := feedChannel } raw = if s.feedOver (s.resultOf feedChannel raw) = true then s.enterTrip else s := by
  cases h : s.feedOver (s.resultOf feedChannel raw) <;>
    simp [State.deliver, State.deliverConfirm, show channelBay feedChannel = none from rfl, h]

/-- Entry into TRIP does not look at the Sampler. -/
theorem EntersTrip.sampler {s t : State} {m : Sampler} (E : EntersTrip { s with sampler := m } t) :
    EntersTrip s { t with sampler := s.sampler } :=
  ⟨E.lives, E.loads, E.outputs, E.entries, E.otherEntries, E.bays, E.tripFlag, E.reclaimFlag, E.staleFlag, E.otherFlags, E.window,
    E.generations, E.waitQueue, congrArg (fun x : State => { x with sampler := s.sampler }) E.frame⟩

end Sys2Proof.Machine

open Sys2Proof Sys2Proof.Machine

/-- Settles O46: the sample is taken and counted, the line of R102 the bay stands in judges it, and the request falls in either order. -/
theorem bayScanned : Obligations.BayScanned := by
  refine ⟨fun y => by unfold Bay.limitInForce; cases y.decreaseGrace <;> rfl, fun s raw late b hcur => ?_⟩
  refine ⟨fun i u g hr hl hc => ?_, fun i u a c n hr hl hc h => ?_, fun hb hc hk hg => ?_, fun hb hq => ?_⟩
  · exact exec_conversionEnd_of_confirmIf s _ raw late _ _ _ hcur fun m => State.deliver_scan_granted { s with sampler := m } b raw i u g hr hl hc
  · exact exec_conversionEnd_of_deliver_keeps s _ raw late _ hcur fun m =>
      State.deliver_scan_retiring { s with sampler := m } b raw i u a n c hr hl hc h
  · exact exec_conversionEnd_of_confirmIf s _ raw late _ _ _ hcur fun m => State.deliver_scan_stray { s with sampler := m } b raw hb hc hk hg
  · refine exec_conversionEnd_of_deliver_keeps s _ raw late _ hcur fun m => ?_
    refine (State.deliver_scan_unjudged { s with sampler := m } b raw hb ?_).trans (s.quietRule_judged b _ m _ ?_)
    · rcases hq with hq | ⟨-, hq⟩
      · exact .inl fun he => nomatch hq.symm.trans he
      · exact .inr hq
    · show (s.bay b).calState ≠ .settling
      rcases hq with hq | ⟨hq, -⟩ <;> rw [hq] <;> exact nofun

/-- Settles O47: the record that supervises the bay decides, and the outcome is the same in both orders of delivery and choice. -/
theorem bayConfirmed : Obligations.BayConfirmed := by
  intro s raw late b hcur
  refine ⟨fun i u g hr hl => ?_, fun hb => ?_⟩
  · have hd := fun m => State.deliver_confirm_granted { s with sampler := m } b raw i u g hr hl
    have hs := fun m y => State.strike_granted (State.setBay { s with sampler := m } b y) i u g hl
    refine ⟨fun h => ?_, fun h hn => ?_, fun h he => ?_⟩
    · exact exec_conversionEnd_of_deliver_keeps s _ raw late _ hcur fun m => (hd m).trans (if_neg (Nat.not_lt.mpr h))
    · exact exec_conversionEnd_of_deliver_keeps s _ raw late _ hcur fun m =>
        (hd m).trans ((if_pos h).trans ((hs m _).trans (if_neg hn)))
    · refine exec_conversionEnd_of_operation s raw late _
        (fun x => ((x.setBay b { s.bay b with latestSample := s.resultOf (bayChannel b) raw }).setLife i
          (.granted u { g with strikes := g.strikes + 1 })).enterRetiring i .overdraw) _ hcur
        (fun m => (hd m).trans ((if_pos h).trans ((hs m _).trans (if_pos he))))
        (fun m => (quiet_enterRetiring _ i .overdraw).sampler) fun m => EntersRetiring.sampler (m := m) ?_
      exact State.entersRetiring _ i .overdraw u _ (State.life_setLife_self _ i _)
  · have hd := fun m => State.deliver_confirm_bare { s with sampler := m } b raw hb
    refine ⟨fun h => ?_, fun hc hk hg h => ?_⟩
    · refine exec_conversionEnd_of_deliver_keeps s _ raw late _ hcur fun m => (hd m).trans (if_neg ?_)
      rintro ⟨hc, hk, hg, hr⟩
      rcases h with h | h | h | h
      · exact h hc
      · exact h hk
      · exact nomatch hg.symm.trans h
      · exact Nat.not_lt.mpr h hr
    · refine exec_conversionEnd_of_deliver_keeps s _ raw late _ hcur fun m => (hd m).trans ((if_pos ⟨hc, hk, hg, h⟩).trans ?_)
      rw [State.blockBay_eq, State.setBay_setBay, State.bay_setBay_self]
      rfl

/-- Settles O49: FEED is judged by the bound of R111 alone; a scan result above it asks, a CONFIRM result above it trips. -/
theorem feedSupervised : Obligations.FeedSupervised := by
  intro s raw late above
  have ha : s.feedOver (s.resultOf feedChannel raw) = true ↔ above := s.feedOver_iff _
  refine ⟨fun hcur => ?_, fun hcur => ?_⟩
  · have hx := exec_conversionEnd_of_confirmIf s s raw late _ (s.feedOver (s.resultOf feedChannel raw) = true) feedChannel hcur fun m =>
      State.deliver_scan_feed { s with sampler := m } raw
    refine ⟨fun h => ?_, fun h => ?_⟩
    · rwa [if_pos (ha.mpr h)] at hx
    · rwa [if_neg (mt ha.mp h)] at hx
  · have hd := fun m => State.deliver_confirm_feed { s with sampler := m } raw
    refine ⟨fun h => ?_, fun h => ?_⟩
    · exact exec_conversionEnd_of_operation s raw late _ State.enterTrip _ hcur (fun m => (hd m).trans (if_pos (ha.mpr h)))
        (fun m => (untouched_enterTrip _).sampler) fun m => (State.entersTrip { s with sampler := m }).sampler
    · exact exec_conversionEnd_of_deliver_keeps s s raw late _ hcur fun m => (hd m).trans (if_neg (mt ha.mp h))

end

section
/-!
Calibration: the quiet rule, the eight results and their mean, and the requests of two bays (O51).
-/
set_option Elab.async false

namespace Sys2Proof.Machine

/-! ### The end of a calibration -/

/-- A bay whose calibration has ended with a result: IDLE, its counts 0, and CAL_DONE added (R116, R123). -/
def Bay.calDone (y : Bay) (c : CalResult) : Bay :=
  { y with
    lastResult := c, calState := .idle, settleLeft := 0, samplesTaken := 0, sampleSum := 0
    events := { y.events with calDone := true } }

/-- A state in which a bay's entry is replaced at the end of its calibration: the bay's flag is raised and the end is a pass trigger (R39, R123,
R181). -/
def State.endedWith (s : State) (b : BayIdx) (y : Bay) : State :=
  { (s.setBay b y).raise (bayFlag b) with
    alloc := { s.alloc with passDue := s.alloc.passDue || (s.alloc.opState == .running && !s.alloc.reclaiming) } }

theorem State.endCalibration_eq (s : State) (b : BayIdx) (c : CalResult) :
    s.endCalibration b c = s.endedWith b ((s.bay b).calDone c) := by
  rw [State.endCalibration, State.trigger_eq, State.addEvent, State.modBay_modBay, State.modBay_eq]
  rfl

/-- A calibration that ends as its bay takes another change. -/
theorem State.endCalibration_setBay (s : State) (b : BayIdx) (y : Bay) (c : CalResult) :
    (s.setBay b y).endCalibration b c = s.endedWith b (y.calDone c) := by
  rw [State.endCalibration_eq, State.bay_setBay_self, State.endedWith, State.setBay_setBay]
  rfl

/-- A delivery that ends a calibration leaves the Sampler alone, so that the choice is the only change there, in both orders (R94). -/
theorem exec_conversionEnd_of_ended (s : State) (raw : Int) (late : Bool) (v : Conversion) (b : BayIdx) (y : Bay)
    (hcur : s.sampler.current = some v)
    (hd : ∀ m, State.deliver { s with sampler := m } v raw = State.endedWith { s with sampler := m } b y) :
    exec (.conversionEnd ⟨raw, late⟩) s = .next { s.endedWith b y with sampler := s.sampler.choose } :=
  exec_conversionEnd_of_deliver_keeps s (s.endedWith b y) raw late v hcur hd

/-! ### The quiet rule of a SETTLING bay -/

/-- A scan result on a SETTLING bare bay: above the stray threshold the calibration ends NOT_QUIET (R120). -/
theorem State.deliver_scan_settling (s : State) (b : BayIdx) (raw : Int) (h : s.Bare b) (hc : (s.bay b).calState = .settling) :
    s.deliver { kind := .scan, channel := bayChannel b } raw =
      if s.params.strayThreshold < s.resultOf (bayChannel b) raw then
        (s.setBay b { s.bay b with latestSample := s.resultOf (bayChannel b) raw }).endCalibration b .notQuiet
      else s.setBay b { s.bay b with latestSample := s.resultOf (bayChannel b) raw } := by
  rw [s.deliver_scan_unjudged b raw h (.inl (by rw [hc]; exact nofun)), State.quietRule]
  simp only [State.bay_setBay_self, State.params_setBay, hc, true_and]

/-! ### A CALIBRATION result -/

/-- A CALIBRATION result is the raw value, in the range of the input (R93, R97, R121). -/
theorem State.deliver_calibration (s : State) (b : BayIdx) (raw : Int) (h1 : -100 ≤ raw) (h2 : raw ≤ 1100) :
    s.deliver { kind := .calibration, channel := bayChannel b } raw = s.calSample b raw := by
  simp only [State.deliver, channelBay_bayChannel, rawOf_bayChannel b raw h1 h2]

/-- Outside SAMPLING a CALIBRATION result is discarded (R121, log 10). -/
theorem State.calSample_idle (s : State) (b : BayIdx) (raw : Int) (h : (s.bay b).calState = .idle) : s.calSample b raw = s := by
  simp only [State.calSample, h]

/-- Above the stray threshold the calibration ends NOT_QUIET (R121). -/
theorem State.calSample_loud (s : State) (b : BayIdx) (raw : Int) (h : (s.bay b).calState = .sampling)
    (hr : (s.params.strayThreshold : Int) < raw) : s.calSample b raw = s.endCalibration b .notQuiet := by
  simp only [State.calSample, h, if_pos hr]

/-- Up to the seventh a result is counted, and the next request is raised (R121). -/
theorem State.calSample_counted (s : State) (b : BayIdx) (raw : Int) (h : (s.bay b).calState = .sampling)
    (hr : raw ≤ s.params.strayThreshold) (hn : (s.bay b).samplesTaken < 7) :
    s.calSample b raw = { s.setBay b { s.bay b with
        samplesTaken := (s.bay b).samplesTaken + 1, sampleSum := (s.bay b).sampleSum + raw } with
      sampler := { s.sampler with calRequests := addChannel (bayChannel b) s.sampler.calRequests } } := by
  have h8 : (s.bay b).samplesTaken + 1 ≠ 8 := by omega
  have hs : s.calSample b raw = (s.modBay b fun y =>
      { y with samplesTaken := y.samplesTaken + 1, sampleSum := y.sampleSum + raw }).requestCalibration b := by
    simp only [State.calSample, h, if_neg (Int.not_lt.mpr hr), if_neg h8]
  exact hs

/-- The eighth result completes the calibration (R122). -/
theorem State.calSample_eighth (s : State) (b : BayIdx) (raw : Int) (h : (s.bay b).calState = .sampling)
    (hr : raw ≤ s.params.strayThreshold) (hn : (s.bay b).samplesTaken = 7) :
    s.calSample b raw = s.completeCalibration b ((s.bay b).sampleSum + raw) := by
  have h8 : (s.bay b).samplesTaken + 1 = 8 := by omega
  simp only [State.calSample, h, if_neg (Int.not_lt.mpr hr), if_pos h8]

/-- A mean from -40 to +40 becomes the offset (R122). -/
theorem State.completeCalibration_pass (s : State) (b : BayIdx) (sum : Int) (h1 : -40 ≤ sum / 8) (h2 : sum / 8 ≤ 40) :
    s.completeCalibration b sum = (s.setBay b { s.bay b with offset := sum / 8 }).endCalibration b .pass :=
  if_pos ⟨h1, h2⟩

theorem State.completeCalibration_outOfRange (s : State) (b : BayIdx) (sum : Int) (h : sum / 8 < -40 ∨ 40 < sum / 8) :
    s.completeCalibration b sum = s.endCalibration b .outOfRange :=
  if_neg fun ⟨h1, h2⟩ => h.elim (Int.not_lt.mpr h1) (Int.not_lt.mpr h2)

/-! ### The requests of two bays -/

theorem bayChannel_lt {a b : BayIdx} : bayChannel a < bayChannel b ↔ a < b := Iff.rfl

/-- The choice takes the one CALIBRATION request, so that the other bay's, which comes after it, waits behind it (R94, R121, log 8). -/
theorem calibrationRaised_late (m : Sampler) (a b : BayIdx) (h : m.calRequests = [bayChannel b]) :
    calibrationRaised true (bayChannel a) m =
      { m with current := some { kind := .calibration, channel := bayChannel b }, calRequests := [bayChannel a] } := by
  rw [calibrationRaised, if_pos rfl, m.choose_calibration _ [] h, addChannel_eq (bayChannel a) [] [bayChannel a] (List.pairwise_singleton ..)
    fun d => by simp]

/-- A request of a lower bay that reaches the choice goes first (R94). -/
theorem calibrationRaised_first (m : Sampler) (a b : BayIdx) (h : m.calRequests = [bayChannel b]) (hab : a < b) :
    calibrationRaised false (bayChannel a) m =
      { m with current := some { kind := .calibration, channel := bayChannel a }, calRequests := [bayChannel b] } := by
  have hadd : addChannel (bayChannel a) m.calRequests = [bayChannel a, bayChannel b] :=
    addChannel_eq _ _ _ (List.pairwise_pair.mpr (bayChannel_lt.mpr hab)) fun d => by simp [h]
  rw [calibrationRaised, if_neg Bool.false_ne_true, Sampler.choose_calibration _ _ _ hadd]

end Sys2Proof.Machine

open Sys2Proof Sys2Proof.Machine

/-- Settles O51: the bay's calibration state decides, then the result and the count, and an end writes the bay, its flag and the pass mark. -/
theorem calibrationTaken : Obligations.CalibrationTaken := by
  refine ⟨fun s raw late b h1 h2 => ?_, fun m a b h _ => ?_⟩
  · refine ⟨fun hcur hc hb => ?_, fun hcur => ?_⟩
    · have hd := fun m => State.deliver_scan_settling { s with sampler := m } b raw hb hc
      refine ⟨fun h => ?_, fun h => ?_⟩
      · exact exec_conversionEnd_of_ended s raw late _ b
          (Bay.calDone { s.bay b with latestSample := s.resultOf (bayChannel b) raw } .notQuiet) hcur fun m =>
          (hd m).trans ((if_pos h).trans (State.endCalibration_setBay ..))
      · exact exec_conversionEnd_of_deliver_keeps s _ raw late _ hcur fun m => (hd m).trans (if_neg (Nat.not_lt.mpr h))
    · have hd := fun m => State.deliver_calibration { s with sampler := m } b raw h1 h2
      refine ⟨fun hc => ?_, fun hc => ⟨fun h => ?_, fun h hn => ?_, fun h hn hl hu => ?_, fun h hn ho => ?_⟩⟩
      · exact exec_conversionEnd_of_deliver_keeps s s raw late _ hcur fun m =>
          (hd m).trans (State.calSample_idle { s with sampler := m } b raw hc)
      · exact exec_conversionEnd_of_ended s raw late _ b ((s.bay b).calDone .notQuiet) hcur fun m =>
          (hd m).trans ((State.calSample_loud { s with sampler := m } b raw hc h).trans (State.endCalibration_eq ..))
      · exact exec_conversionEnd_of_deliver s (s.setBay b _) raw late _
          (fun m => { m with calRequests := addChannel (bayChannel b) m.calRequests }) hcur fun m =>
          (hd m).trans (State.calSample_counted { s with sampler := m } b raw hc h hn)
      · exact exec_conversionEnd_of_ended s raw late _ b
          (Bay.calDone { s.bay b with offset := ((s.bay b).sampleSum + raw) / 8 } .pass) hcur fun m =>
          (hd m).trans ((State.calSample_eighth { s with sampler := m } b raw hc h hn).trans
            ((State.completeCalibration_pass _ b _ hl hu).trans (State.endCalibration_setBay ..)))
      · exact exec_conversionEnd_of_ended s raw late _ b ((s.bay b).calDone .outOfRange) hcur fun m =>
          (hd m).trans ((State.calSample_eighth { s with sampler := m } b raw hc h hn).trans
            ((State.completeCalibration_outOfRange _ b _ ho).trans (State.endCalibration_eq ..)))
  · rw [calibrationRaised_late m a b h]
    refine ⟨rfl, rfl, fun hab => ?_⟩
    rw [calibrationRaised_first m a b h hab]
    exact ⟨rfl, rfl⟩

end

section
/-!
The two commands that start work on a channel: CAL.START and SAMPLE.REQUEST (O24).
-/
set_option Elab.async false

namespace Sys2Proof.Machine

/-! ### One bay or one channel as argument -/

/-- A bay number above 15 is out of range (R184). -/
theorem State.bayArg_badArg (s : State) (b : Byte) (f : BayIdx → State → State) (h : 15 < b.toNat) : s.bayArg [b] f = s.refuse .badArg :=
  dif_neg (Nat.not_lt.mpr h)

theorem State.bayArg_of_lt (s : State) (b : Byte) (f : BayIdx → State → State) (h : b.toNat < 16) : s.bayArg [b] f = f ⟨b.toNat, h⟩ s :=
  dif_pos h

/-- A channel number above 17 is out of range (R184). -/
theorem State.channelArg_badArg (s : State) (c : Byte) (f : Channel → State → State) (h : 17 < c.toNat) :
    s.channelArg [c] f = s.refuse .badArg :=
  dif_neg (Nat.not_lt.mpr h)

theorem State.channelArg_of_lt (s : State) (c : Byte) (f : Channel → State → State) (h : c.toNat < 18) :
    s.channelArg [c] f = f ⟨c.toNat, h⟩ s :=
  dif_pos h

/-! ### CAL.START -/

/-- The bay's record is GRANTED or RETIRING (R29, R117). -/
theorem State.bayHoldsLoad_iff (s : State) (b : BayIdx) :
    ((s.bayLife b).map Life.holdsLoad).getD false = true ↔ ∃ i, (s.bay b).record = some i ∧ (s.life i).holdsLoad = true := by
  cases h : (s.bay b).record <;> simp [State.bayLife, h]

/-- The four grounds on which CAL.START is refused (R117). -/
theorem State.calRefused_iff (s : State) (b : BayIdx) : s.calRefused b = true ↔
    s.alloc.opState = .trip ∨ (∃ i, (s.bay b).record = some i ∧ (s.life i).holdsLoad = true) ∨ (s.bay b).enable = .closed ∨
      (s.bay b).calState ≠ .idle := by
  simp only [State.calRefused, Bool.or_eq_true, s.bayHoldsLoad_iff b, beq_iff_eq, bne_iff_ne, or_assoc]

theorem exec_calStart_badArg (s : State) (b : Byte) (h : 15 < b.toNat) : exec (.calStart [b]) s = .next (s.refuse .badArg) :=
  congrArg _ (s.bayArg_badArg b _ h)

theorem exec_calStart (s : State) (b : Byte) (h : b.toNat < 16) : exec (.calStart [b]) s =
    .next (if s.calRefused ⟨b.toNat, h⟩ then s.refuse .state else (s.startCalibration ⟨b.toNat, h⟩).ok) :=
  congrArg _ (s.bayArg_of_lt b _ h)

/-! ### SAMPLE.REQUEST -/

/-- A PORT request of the channel is pending or in conversion (R98). -/
theorem Sampler.portBusy_iff (m : Sampler) (c : Channel) :
    m.portBusy c = true ↔ c ∈ m.portRequests ∨ m.current = some { kind := .port, channel := c } := by
  simp only [Sampler.portBusy, Bool.or_eq_true, List.contains_iff_mem, beq_iff_eq]

theorem exec_sampleRequest_badArg (s : State) (c : Byte) (h : 17 < c.toNat) :
    exec (.sampleRequest [c]) s = .next (s.refuse .badArg) :=
  congrArg _ (s.channelArg_badArg c _ h)

theorem exec_sampleRequest (s : State) (c : Byte) (h : c.toNat < 18) : exec (.sampleRequest [c]) s =
    .next (if s.sampler.portBusy ⟨c.toNat, h⟩ then s.refuse .busy
      else ((s.setHolder ⟨c.toNat, h⟩ { s.sampler.holders.get ⟨c.toNat, h⟩ with ready := false }).requestPort ⟨c.toNat, h⟩).ok) :=
  congrArg _ (s.channelArg_of_lt c _ h)

end Sys2Proof.Machine

open Sys2Proof Sys2Proof.Machine

/-- Settles O24: each command by its range check, the grounds on which it is refused, and what it writes otherwise. -/
theorem calStartAndSampleRequestTaken : Obligations.CalStartAndSampleRequestTaken := by
  refine ⟨fun s b => ⟨exec_calStart_badArg s b, fun h => ⟨fun refused => ?_, fun taken => ?_⟩⟩,
    fun s c => ⟨exec_sampleRequest_badArg s c, fun h => ⟨fun busy => ?_, fun free => ?_⟩⟩⟩
  · rw [exec_calStart s b h, if_pos ((s.calRefused_iff _).mpr refused)]
  · rw [exec_calStart s b h, if_neg (mt (s.calRefused_iff _).mp taken), State.startCalibration, State.modBay_eq]
    rfl
  · rw [exec_sampleRequest s c h, if_pos ((s.sampler.portBusy_iff _).mpr busy)]
  · refine ⟨_, _, fun d => get_holders_set _ _ d _, fun d => mem_addChannel _ d _, sorted_addChannel _ _, ?_⟩
    rw [exec_sampleRequest s c h, if_neg (mt (s.sampler.portBusy_iff _).mp free)]
    rfl

end

section
/-!
What the lowering and the revoke walk of a reclaim step can do to a state, said once for both, and the effective ceiling that begins or
continues reclaiming (O12).
-/
set_option Elab.async false

namespace Sys2Proof.Machine

/-! ### The reclaim measure -/

/-- The reclaim measure as a sum over the records in ascending order (R135). -/
theorem State.measure_eq (s : State) (p : Position) : s.measure p = (allRecords.map fun i => (s.life i).measureAt p).sum := by
  have h : s.pool.records.toList = allRecords.map s.record := by
    refine List.ext_getElem (by simp [allRecords]) fun n h1 h2 => ?_
    simp [allRecords, State.record, Vector.get_eq_getElem]
  rw [State.measure, h, List.map_map]
  rfl

/-! ### What a reclaim step does to one record -/

/-- What a record's life can become in a reclaim step under a retire timeout: it stands, a staged grant above the floor is lowered to it
(R137), or a GRANTED record is revoked with the active grant it has (R138). -/
inductive Life.Cut (timeout : Nat) : Life → Life → Prop
  | same (l : Life) : Life.Cut timeout l l
  | lowered {u : Terms} {g : Grant} (above : u.floor < g.staged) :
      Life.Cut timeout (.granted u g) (.granted u { g with staged := u.floor })
  | revoked {u : Terms} {g : Grant} : Life.Cut timeout (.granted u g) (.retiring u g.active .reclaim timeout)

theorem Life.Cut.trans {n : Nat} {l k m : Life} (h : l.Cut n k) (h' : k.Cut n m) : l.Cut n m := by
  cases h with
  | same => exact h'
  | lowered above =>
    cases h' with
    | same => exact .lowered above
    | lowered again => exact absurd again (lt_irrefl _)
    | revoked => exact .revoked
  | revoked =>
    cases h' with
    | same => exact .revoked

/-- A reclaim step lowers what a record counts in the reclaim measure: a revoked record counts 0 (R135). -/
theorem Life.Cut.measureAt_le {n : Nat} {l k : Life} (h : l.Cut n k) (p : Position) : k.measureAt p ≤ l.measureAt p := by
  cases h with
  | same => exact le_refl _
  | lowered above =>
    simp only [Life.measureAt]
    split
    · exact above.le
    · exact le_refl _
  | revoked => simp [Life.measureAt]

/-- A record that is GRANTED after a reclaim step was so before it, with the same terms and no lower staged grant. -/
theorem Life.Cut.of_granted {n : Nat} {l : Life} {u : Terms} {g : Grant} (h : l.Cut n (.granted u g)) :
    ∃ g', l = .granted u g' ∧ g.staged ≤ g'.staged := by
  cases h with
  | same => exact ⟨g, rfl, le_refl _⟩
  | lowered above => exact ⟨_, rfl, above.le⟩

/-- What a record becomes when reclaiming begins or goes on under a retire timeout: a GRANTED record is kept, lowered or revoked, a WAITING
one takes BUDGET when reclaiming begins, and any other stands (R136 to R138). -/
def Life.ReclaimsTo (timeout : Nat) (reclaiming : Bool) (l k : Life) : Prop :=
  match l with
  | .granted u g => k = .granted u g ∨ u.floor < g.staged ∧ k = .granted u { g with staged := u.floor } ∨
      k = .retiring u g.active .reclaim timeout
  | .waiting u r => k = .waiting u (if reclaiming then r else .budget)
  | l => k = l

theorem Life.Cut.reclaimsTo {n : Nat} {reclaiming : Bool} {l k : Life}
    (h : Life.Cut n (if reclaiming then l else l.withReason .budget) k) : l.ReclaimsTo n reclaiming k := by
  cases l with
  | granted u g =>
    simp only [Life.withReason, ite_self] at h
    cases h with
    | same => exact .inl rfl
    | lowered above => exact .inr (.inl ⟨above, rfl⟩)
    | revoked => exact .inr (.inr rfl)
  | waiting u r =>
    rw [show (if reclaiming then Life.waiting u r else (Life.waiting u r).withReason .budget) =
      .waiting u (if reclaiming then r else .budget) by split <;> rfl] at h
    cases h with
    | same => rfl
  | free | retiring | spent =>
    simp only [Life.withReason, ite_self] at h
    cases h with
    | same => rfl

/-! ### What a reclaim step does to the state -/

/-- What one record of the lowering or the revoke walk does, and hence a whole walk (R134, R137, R138): records are cut, loads fall, the
evaluation keeps the reclaiming condition, and no enable, no bay's record and no other flag is touched. -/
structure Cuts (s t : State) : Prop extends Quiet s t where
  lives : ∀ i, (s.life i).Cut s.params.retireTimeout (t.life i)
  loads : ∀ p, t.load p ≤ s.load p
  reclaimExact : s.ReclaimExact → t.ReclaimExact
  reclaimFlag : s.attention.flags.get flagReclaim = .raisedUnseen → t.attention.flags.get flagReclaim = .raisedUnseen
  otherFlags : ∀ f, f ≠ flagReclaim → f ≠ flagEditStale → t.attention.flags.get f = s.attention.flags.get f
  entries : ∀ b, (t.bay b).enable = (s.bay b).enable ∧ (t.bay b).record = (s.bay b).record
  lists : s.ListsExact → t.ListsExact ∧ t.alloc.waitQueue = s.alloc.waitQueue

theorem Cuts.refl (s : State) : Cuts s s :=
  { Quiet.refl s with
    lives := fun _ => .same _, loads := fun _ => le_refl _, reclaimExact := id, reclaimFlag := id, otherFlags := fun _ _ _ => rfl,
    entries := fun _ => ⟨rfl, rfl⟩, lists := fun h => ⟨h, rfl⟩ }

theorem Cuts.trans {s t u : State} (h : Cuts s t) (k : Cuts t u) : Cuts s u :=
  { h.toQuiet.trans k.toQuiet with
    lives := fun i => (h.lives i).trans (h.params ▸ k.lives i)
    loads := fun p => (k.loads p).trans (h.loads p)
    reclaimExact := fun e => k.reclaimExact (h.reclaimExact e)
    reclaimFlag := fun e => k.reclaimFlag (h.reclaimFlag e)
    otherFlags := fun f h1 h2 => (k.otherFlags f h1 h2).trans (h.otherFlags f h1 h2)
    entries := fun b => ⟨(k.entries b).1.trans (h.entries b).1, (k.entries b).2.trans (h.entries b).2⟩
    lists := fun e => by
      obtain ⟨e1, q1⟩ := h.lists e
      obtain ⟨e2, q2⟩ := k.lists e1
      exact ⟨e2, q2.trans q1⟩ }

theorem Cuts.foldl {f : State → RecIdx → State} (hf : ∀ s i, Cuts s (f s i)) : ∀ (l : List RecIdx) (s : State), Cuts s (l.foldl f s)
  | [], s => .refl s
  | i :: l, s => (hf s i).trans (Cuts.foldl hf l (f s i))

theorem Cuts.measure_le {s t : State} (h : Cuts s t) (p : Position) : t.measure p ≤ s.measure p := by
  rw [State.measure_eq, State.measure_eq]
  exact List.sum_le_sum fun i _ => (h.lives i).measureAt_le p

/-- A fall of a contribution, with its evaluation, keeps the reclaiming condition exact (R134); `same` says that no load moved. -/
theorem State.ReclaimExact.fall {s t : State} {same : Prop} (h : s.ReclaimExact) (eff : t.alloc.effCeiling = s.alloc.effCeiling)
    (le : ∀ p, t.load p ≤ s.load p) (eq : same → ∀ p, t.load p = s.load p)
    (iff : t.alloc.reclaiming = true ↔ s.alloc.reclaiming = true ∧ (same ∨ ∃ p, s.alloc.effCeiling < t.load p)) : t.ReclaimExact := by
  rw [State.ReclaimExact, iff, eff]
  constructor
  · rintro ⟨hr, hs | hp⟩
    · simpa only [eq hs] using h.mp hr
    · exact hp
  · rintro ⟨p, hp⟩
    exact ⟨h.mpr ⟨p, hp.trans_le (le p)⟩, .inr ⟨p, hp⟩⟩

/-- A GRANTED record above its floor is lowered to it (R137). -/
theorem cuts_stage_floor (s : State) (i : RecIdx) (u : Terms) (g : Grant) (h : s.life i = .granted u g) (above : u.floor < g.staged) :
    Cuts s ((s.stage i u.floor).markStale i) := by
  have S := State.stages s i u g u.floor h
  have M : Moves (fun _ => False) s ((s.stage i u.floor).markStale i) := moves_stage_floor s i u g h
  have Q : Quiet s ((s.stage i u.floor).markStale i) := (quiet_stage s i _).trans (quiet_markStale _ i)
  generalize (s.stage i u.floor).markStale i = t at *
  have loads : ∀ p, t.load p ≤ s.load p := fun p => by
    rw [S.loads p]
    split
    · show s.load p + max g.active u.floor - max g.active g.staged ≤ s.load p
      omega
    · exact le_refl _
  refine { Q with
    lives := fun j => ?_, loads, reclaimExact := fun e => ?_, reclaimFlag := fun e => ?_, otherFlags := S.otherFlags
    entries := fun b => ?_, lists := fun e => ⟨M.keeps (fun _ _ => Move.listsExact) e, ?_⟩ }
  · by_cases hj : j = i
    · subst hj
      rw [S.life, h]
      exact .lowered above
    · rw [S.otherLives j hj]
      exact .same _
  · refine e.fall Q.effCeiling loads (fun hs p => ?_) S.reclaiming
    rw [S.loads p, ← hs, Nat.add_sub_cancel, ite_self]
  · rw [S.reclaimFlag, e, ite_self]
  · rw [State.bay_congr (congrArg State.bays S.frame) b]
    exact ⟨rfl, rfl⟩
  · rw [S.frame]

/-- A GRANTED record is revoked (R138). -/
theorem cuts_revoke (s : State) (i : RecIdx) (u : Terms) (g : Grant) (h : s.life i = .granted u g) :
    Cuts s (s.enterRetiring i .reclaim) := by
  have R := State.entersRetiring s i .reclaim u g h
  have M : Moves (fun _ => False) s (s.enterRetiring i .reclaim) := moves_enterRetiring s i .reclaim
  have Q := quiet_enterRetiring s i .reclaim
  generalize s.enterRetiring i .reclaim = t at *
  have loads : ∀ p, t.load p ≤ s.load p := fun p => by
    rw [R.loads p]
    split
    · omega
    · exact le_refl _
  refine { Q with
    lives := fun j => ?_, loads, reclaimExact := fun e => ?_, reclaimFlag := fun e => ?_, otherFlags := R.otherFlags
    entries := fun b => ?_, lists := fun e => ⟨M.keeps (fun _ _ => Move.listsExact) e, ?_⟩ }
  · by_cases hj : j = i
    · subst hj
      rw [R.life, h]
      exact .revoked
    · rw [R.otherLives j hj]
      exact .same _
  · refine e.fall Q.effCeiling loads (fun hs p => ?_) R.reclaiming
    rw [R.loads p, max_eq_left hs, Nat.add_sub_cancel, ite_self]
  · rw [R.reclaimFlag, e, ite_self]
  · by_cases hb : b = u.bay
    · subst hb
      rw [R.bay]
      exact ⟨rfl, rfl⟩
    · rw [R.otherBays b hb]
      exact ⟨rfl, rfl⟩
  · rw [R.waitQueue]
    refine List.filter_eq_self.mpr fun j hj => decide_eq_true fun hji => ?_
    have hw := (e.2.1.2.1 j).mp hj
    rw [hji, h] at hw
    exact Bool.false_ne_true hw

theorem cuts_reclaimLower (s : State) (i : RecIdx) : Cuts s (s.reclaimLower i) := by
  unfold State.reclaimLower
  split
  · rename_i u g h
    split
    · rename_i hc
      exact cuts_stage_floor s i u g h hc.1
    · exact .refl s
  · exact .refl s

theorem cuts_reclaimRevoke (s : State) (i : RecIdx) : Cuts s (s.reclaimRevoke i) := by
  unfold State.reclaimRevoke
  split
  · rename_i u g h
    split
    · exact cuts_revoke s i u g h
    · exact .refl s
  · exact .refl s

theorem cuts_reclaimStep (s : State) : Cuts s s.reclaimStep :=
  (Cuts.foldl cuts_reclaimLower _ s).trans (Cuts.foldl cuts_reclaimRevoke _ _)

/-! ### Where a reclaim step ends -/

/-- A record that its turn of the revoke walk leaves GRANTED and on in a position that does not fit has staged grant 0 (R138). -/
theorem State.staged_reclaimRevoke (s : State) (i : RecIdx) (u : Terms) (g : Grant) (h : (s.reclaimRevoke i).life i = .granted u g)
    (excess : (s.reclaimRevoke i).InExcess u) : g.staged = 0 := by
  have hcut := (cuts_reclaimRevoke s i).lives i
  rw [h] at hcut
  obtain ⟨g', hl, hle⟩ := hcut.of_granted
  by_cases hc : 0 < g'.staged ∧ s.unfit.any u.onAt = true
  · have e : s.reclaimRevoke i = s.enterRetiring i .reclaim := by simp only [State.reclaimRevoke, hl, if_pos hc]
    rw [e, State.life_enterRetiring s i .reclaim u g' hl, if_pos rfl] at h
    cases h
  · have e : s.reclaimRevoke i = s := by simp only [State.reclaimRevoke, hl, if_neg hc]
    rw [e] at excess
    have : ¬ 0 < g'.staged := fun hp => hc ⟨hp, (s.inExcess_iff u).mp excess⟩
    omega

/-- A position that does not fit at the end of a walk did not fit before it. -/
theorem Cuts.inExcess {s t : State} (h : Cuts s t) {u : Terms} (e : t.InExcess u) : s.InExcess u := by
  obtain ⟨p, hp, hm⟩ := e
  exact ⟨p, hp, h.effCeiling ▸ hm.trans_le (h.measure_le p)⟩

/-- The same of every record of the list, at the end of the walk: nothing after its turn raises a measure or a staged grant. -/
theorem State.staged_reclaimRevokes (l : List RecIdx) (s : State) (i : RecIdx) (u : Terms) (g : Grant) (hi : i ∈ l)
    (hl : (l.foldl State.reclaimRevoke s).life i = .granted u g) (excess : (l.foldl State.reclaimRevoke s).InExcess u) :
    g.staged = 0 := by
  induction l generalizing s with
  | nil => exact absurd hi List.not_mem_nil
  | cons j rest ih =>
    rw [List.foldl_cons] at hl excess
    rcases List.mem_cons.mp hi with rfl | hi
    · have C := Cuts.foldl cuts_reclaimRevoke rest (s.reclaimRevoke i)
      have hcut := C.lives i
      rw [hl] at hcut
      obtain ⟨g', hl', hle⟩ := hcut.of_granted
      have := s.staged_reclaimRevoke i u g' hl' (C.inExcess excess)
      omega
    · exact ih _ hi hl excess

/-- After a reclaim step no GRANTED record on in a position that does not fit keeps a staged grant (R138). -/
theorem State.staged_reclaimStep (s : State) (hs : s.ListsExact) (i : RecIdx) (u : Terms) (g : Grant)
    (h : s.reclaimStep.life i = .granted u g) (excess : s.reclaimStep.InExcess u) : g.staged = 0 := by
  obtain ⟨⟨-, -, hgrant⟩, -⟩ := (Cuts.foldl cuts_reclaimLower s.victims s).lists hs
  rw [State.reclaimStep] at h excess
  generalize s.victims.foldl State.reclaimLower s = m at *
  have hcut := (Cuts.foldl cuts_reclaimRevoke m.victims m).lives i
  rw [h] at hcut
  obtain ⟨g', hl, -⟩ := hcut.of_granted
  have hi : i ∈ m.alloc.grantOrder := (hgrant.2 i).mpr (by rw [hl]; rfl)
  exact State.staged_reclaimRevokes m.victims m i u g ((m.mem_victims i).mpr hi) h excess

/-! ### The beginning of reclaiming -/

/-- The state in which the walks of a reclaim step start: outside reclaiming, reclaiming has begun, RECLAIM is raised and every WAITING
record waits with BUDGET (R136). -/
def State.begun (s : State) : State :=
  if s.alloc.reclaiming then s
  else ({ s with alloc := { s.alloc with reclaiming := true } }.raise flagReclaim).setAllWaitReasons .budget

theorem State.begun_reclaiming (s : State) (h : s.alloc.reclaiming = true) : s.begun = s := if_pos h

theorem State.begun_outside (s : State) (h : s.alloc.reclaiming = false) :
    s.begun = ({ s with alloc := { s.alloc with reclaiming := true } }.raise flagReclaim).setAllWaitReasons .budget := by
  rw [State.begun, h]
  rfl

theorem State.life_begun (s : State) (i : RecIdx) :
    s.begun.life i = if s.alloc.reclaiming then s.life i else (s.life i).withReason .budget := by
  cases h : s.alloc.reclaiming with
  | true => rw [s.begun_reclaiming h]; rfl
  | false => rw [s.begun_outside h, State.life_setAllWaitReasons]; rfl

theorem State.alloc_begun (s : State) : s.begun.alloc = { s.alloc with reclaiming := true } := by
  cases h : s.alloc.reclaiming with
  | true => rw [s.begun_reclaiming h, ← h]
  | false => rw [s.begun_outside h, State.alloc_setAllWaitReasons]; rfl

theorem State.bay_begun (s : State) (b : BayIdx) : s.begun.bay b = s.bay b := by
  cases h : s.alloc.reclaiming with
  | true => rw [s.begun_reclaiming h]
  | false => rw [s.begun_outside h, State.bay_congr (State.bays_setAllWaitReasons ..)]; rfl

theorem State.flags_begun (s : State) (f : Flag) : s.begun.attention.flags.get f =
    if s.alloc.reclaiming = false ∧ f = flagReclaim then .raisedUnseen else s.attention.flags.get f := by
  cases h : s.alloc.reclaiming with
  | true => rw [s.begun_reclaiming h, if_neg fun x => nomatch x.1]
  | false =>
    rw [s.begun_outside h, State.attention_setAllWaitReasons, State.flag_raise]
    simp only [true_and]

theorem quiet_begun (s : State) : Quiet s s.begun := by
  unfold State.begun
  split
  · exact .refl s
  · exact ((quiet_alloc s { s.alloc with reclaiming := true } rfl rfl rfl rfl rfl).trans (quiet_raise _ _)).trans (quiet_setAllWaitReasons _ _)

theorem listsExact_begun (s : State) (h : s.ListsExact) : s.begun.ListsExact := by
  have M : Moves (fun _ => False) s s.begun := by
    unfold State.begun
    split
    · exact .refl s
    · exact ((Move.moves .aside).trans (moves_raise _ _)).trans (moves_setAllWaitReasons _ _)
  exact M.keeps (fun _ _ => Move.listsExact) h

theorem reclaimExact_begun (s : State) (h : ∃ p, s.alloc.effCeiling < s.load p) : s.begun.ReclaimExact := by
  simp only [State.ReclaimExact, State.load, State.alloc_begun, true_iff]
  exact h

theorem State.reclaimStep_begun (s : State) : s.begun.reclaimStep = if s.alloc.reclaiming then s.reclaimStep else s.beginReclaim := by
  unfold State.begun
  split <;> rfl

/-! ### A recomputed effective ceiling, case by case -/

/-- An equal value changes nothing (R132, R133). -/
theorem State.setEffective_equal (s : State) : s.setEffective s.alloc.effCeiling = s := if_pos rfl

/-- A rise is evaluated and is a trigger (R132, R133, R139). -/
theorem State.setEffective_rise (s : State) (e : Nat) (h : s.alloc.effCeiling < e) :
    s.setEffective e = (State.evaluate { s with alloc := { s.alloc with effCeiling := e } }).trigger :=
  (if_neg h.ne').trans (if_pos h)

/-- A fall that leaves every load at or below it (R132, R133). -/
theorem State.setEffective_fall (s : State) (e : Nat) (h : e < s.alloc.effCeiling) (fits : ∀ p, s.load p ≤ e) :
    s.setEffective e = { s with alloc := { s.alloc with effCeiling := e } } :=
  (if_neg h.ne).trans ((if_neg h.asymm).trans (if_pos ((Allocator.fits_iff { s.alloc with effCeiling := e }).mpr fits)))

/-- A fall below some load begins reclaiming or runs a further reclaim step (R132, R133, R136, R139). -/
theorem State.setEffective_below (s : State) (e : Nat) (h : e < s.alloc.effCeiling) (hp : ∃ p, e < s.load p) :
    s.setEffective e = State.reclaimStep (State.begun { s with alloc := { s.alloc with effCeiling := e } }) := by
  have hfit : ({ s.alloc with effCeiling := e } : Allocator).fits = false := by
    rw [← Bool.not_eq_true, Allocator.fits_iff]
    push Not
    exact hp
  rw [State.reclaimStep_begun]
  simp only [State.setEffective, if_neg (Nat.ne_of_lt h), if_neg (Nat.lt_asymm h), hfit, Bool.false_eq_true, if_false]

/-- A reclaim step on `s`, which begins reclaiming where it had not begun, and what it leaves in `t` (R134 to R138). -/
structure Reclaimed (s t : State) : Prop extends Quiet s t where
  reclaims : Reclaims s t
  lives : ∀ i, (s.life i).ReclaimsTo s.params.retireTimeout s.alloc.reclaiming (t.life i)
  reclaiming : t.alloc.reclaiming = true ↔ ∃ p, s.alloc.effCeiling < t.load p
  flag : s.alloc.reclaiming = false → t.attention.flags.get flagReclaim = .raisedUnseen
  staged : ∀ p, s.alloc.effCeiling < t.measure p → ∀ i u g, t.life i = .granted u g → u.onAt p = true → g.staged = 0
  waitQueue : t.alloc.waitQueue = s.alloc.waitQueue
  entries : ∀ b, (t.bay b).enable = (s.bay b).enable ∧ (t.bay b).record = (s.bay b).record

theorem State.reclaimed (s : State) (lists : s.ListsExact) (below : ∃ p, s.alloc.effCeiling < s.load p) :
    Reclaimed s s.begun.reclaimStep := by
  have C := cuts_reclaimStep s.begun
  have Q := (quiet_begun s).trans C.toQuiet
  have begun := listsExact_begun s lists
  refine { Q with
    reclaims := ?_, lives := fun i => Life.Cut.reclaimsTo ?_, reclaiming := ?_, flag := fun h => ?_, staged := fun p hp i u g hg hon => ?_
    waitQueue := ?_, entries := fun b => ?_ }
  · rw [s.reclaimStep_begun]
    exact s.reclaims_begun lists.2.2.1 fun i => (lists.2.2.2 i).mp
  · rw [← s.life_begun i, ← (quiet_begun s).params]
    exact C.lives i
  · rw [← Q.effCeiling]
    exact C.reclaimExact (reclaimExact_begun s below)
  · exact C.reclaimFlag ((s.flags_begun flagReclaim).trans (if_pos ⟨h, rfl⟩))
  · exact s.begun.staged_reclaimStep begun i u g hg ⟨p, hon, by rwa [Q.effCeiling]⟩
  · rw [(C.lists begun).2, s.alloc_begun]
  · rw [← s.bay_begun b]
    exact C.entries b

/-! ### CEILING.WRITE -/

theorem exec_ceilingWrite (s : State) (hi lo : Byte) (h : u16 hi lo ≤ 2500) :
    exec (.ceilingWrite [hi, lo]) s = .next (s.writeCeiling (u16 hi lo)).ok :=
  congrArg _ (if_pos h)

/-- A ceiling that leaves some load above the new effective ceiling (R133). -/
theorem State.writeCeiling_below (s : State) (v e : Nat) (he : e = v * s.thermal.zone.factor / 100) (h : e < s.alloc.effCeiling)
    (hp : ∃ p, e < s.load p) :
    s.writeCeiling v = State.reclaimStep (State.begun { s with alloc := { s.alloc with ceiling := v, effCeiling := e } }) := by
  subst he
  exact State.setEffective_below { s with alloc := { s.alloc with ceiling := v } } _ h hp

end Sys2Proof.Machine

open Sys2Proof Sys2Proof.Machine

/-- Settles O12: the fall begins reclaiming or continues it, and every record of the two walks is cut as R137 and R138 say. -/
theorem ceilingFallReclaims : Obligations.CeilingFallReclaims := by
  refine ⟨fun s p => s.measure_eq p, fun hi lo s e hv he hlt hload lists => ?_⟩
  have hexec := exec_ceilingWrite s hi lo hv
  rw [s.writeCeiling_below (u16 hi lo) e he hlt hload] at hexec
  have R := State.reclaimed { s with alloc := { s.alloc with ceiling := u16 hi lo, effCeiling := e } } lists hload
  generalize State.reclaimStep _ = t at *
  exact ⟨⟨t, R.reclaims, hexec⟩, t.ok, hexec, R.ceiling, R.effCeiling, rfl, R.lives, R.reclaiming, R.flag, R.staged, R.waitQueue,
    R.opState, R.freeList, R.entries, R.timer, R.thermal, R.clock, R.link, R.params, R.sampler⟩

end

section
/-!
TEMP: the zone of a code, the filter, and what the Allocator does with the zone a scan result brings, in both orders of delivery and choice
(O50).
-/
set_option Elab.async false

namespace Sys2Proof.Machine

/-! ### The Allocator does not look at the Sampler -/

theorem Regrants.sampler {s t : State} {i : RecIdx} {u u' : Terms} {g g' : Grant} (S : Regrants s t i u g u' g') (m : Sampler) :
    Regrants { s with sampler := m } { t with sampler := m } i u g u' g' :=
  ⟨S.life, S.pattern, S.otherLives, S.generations, S.loads, S.reclaiming, S.reclaimFlag, S.passDue, S.otherFlags, S.window, S.staleFlag,
    congrArg (fun x : State => { x with sampler := m }) S.frame⟩

theorem ReclaimLowers.sampler {s t : State} {l : List RecIdx} (h : ReclaimLowers s l t) (m : Sampler) :
    ReclaimLowers { s with sampler := m } l { t with sampler := m } := by
  induction h with
  | ended => exact .ended _
  | left hl hn _ ih => exact .left hl hn ih
  | lowered hl above excess S _ ih => exact .lowered hl above excess (Regrants.sampler S m) ih

theorem ReclaimRevokes.sampler {s t : State} {l : List RecIdx} (h : ReclaimRevokes s l t) (m : Sampler) :
    ReclaimRevokes { s with sampler := m } l { t with sampler := m } := by
  induction h with
  | ended => exact .ended _
  | left hl hn _ ih => exact .left hl hn ih
  | @revoked s s' t j rest v g hl pos excess R _ ih =>
    exact .revoked hl pos excess (EntersRetiring.sampler (s := { s with sampler := m }) (m := s.sampler) R) ih

theorem Reclaims.sampler {s t : State} (h : Reclaims s t) (m : Sampler) : Reclaims { s with sampler := m } { t with sampler := m } := by
  obtain ⟨v, w, l, going, begins, mem, order, lowers, revokes⟩ := h
  refine ⟨{ v with sampler := m }, _, l, fun hr => ?_, fun hr => ?_, mem, order, lowers.sampler m, revokes.sampler m⟩
  · rw [going hr]
  · obtain ⟨records, lives, e⟩ := begins hr
    exact ⟨records, lives, congrArg (fun x : State => { x with sampler := m }) e⟩

theorem TakesEffective.sampler {s t : State} {e : Nat} (T : TakesEffective s e t) (m : Sampler) :
    TakesEffective { s with sampler := m } e { t with sampler := m } :=
  have put {x y : State} (h : x = y) : ({ x with sampler := m } : State) = { y with sampler := m } :=
    congrArg (fun x : State => { x with sampler := m }) h
  ⟨fun h => put (T.equal h), fun h hr hp => put (T.fits h hr hp), fun h hp => (T.below h hp).sampler m, fun h hr => put (T.rise h hr),
    fun h hr hp => put (T.continues h hr hp), fun h hr hp => put (T.ends h hr hp)⟩

/-! ### What a recomputed effective ceiling leaves -/

theorem State.flags_evaluate (s : State) (f : Flag) (h : f ≠ flagReclaim) : s.evaluate.attention.flags.get f = s.attention.flags.get f := by
  unfold State.evaluate
  split
  · rw [State.attention_trigger, State.flag_raise, if_neg h]
  · rfl

/-- A recomputed effective ceiling raises RECLAIM and EDIT_STALE at most (R136, R140, R179). -/
theorem State.flags_setEffective (s : State) (e : Nat) (f : Flag) (h1 : f ≠ flagReclaim) (h2 : f ≠ flagEditStale) :
    (s.setEffective e).attention.flags.get f = s.attention.flags.get f := by
  by_cases below : e < s.alloc.effCeiling ∧ ∃ p, e < s.load p
  · rw [s.setEffective_below e below.1 below.2, (cuts_reclaimStep _).otherFlags f h1 h2, State.flags_begun, if_neg fun x => h1 x.2]
  · rcases lt_trichotomy e s.alloc.effCeiling with fall | rfl | rise
    · rw [s.setEffective_fall e fall fun p => Nat.le_of_not_lt fun hp => below ⟨fall, p, hp⟩]
    · rw [s.setEffective_equal]
    · rw [s.setEffective_rise e rise, State.attention_trigger, State.flags_evaluate _ f h1]

/-- Outside reclaiming an effective ceiling under which every load fits is taken as it is, a rise being a pass trigger (R132, R133). -/
theorem State.setEffective_fits (s : State) (e : Nat) (fits : ∀ p, s.load p ≤ e) (hr : s.alloc.reclaiming = false) :
    s.setEffective e = { s with alloc := { s.alloc with
      effCeiling := e
      passDue := s.alloc.passDue || (decide (s.alloc.effCeiling < e) && s.alloc.opState == OpState.running) } } := by
  rcases lt_trichotomy e s.alloc.effCeiling with fall | rfl | rise
  · rw [s.setEffective_fall e fall fits, decide_eq_false fall.asymm, Bool.false_and, Bool.or_false]
  · rw [s.setEffective_equal, decide_eq_false (lt_irrefl _), Bool.false_and, Bool.or_false]
  · rw [s.setEffective_rise e rise, State.evaluate, if_neg fun x => Bool.false_ne_true (hr.symm.trans x.1), State.trigger_eq,
      decide_eq_true rise]
    simp only [hr, Bool.not_false, Bool.and_true, Bool.true_and]

/-! ### The filter and the zone -/

/-- A result replaces the filtered code when there is none or it differs by more than the width (R129). -/
theorem filterMoves_iff (width r : Nat) (filtered : Option Nat) :
    filterMoves width filtered r = true ↔ ∀ f, filtered = some f → f + width < r ∨ r + width < f := by
  cases filtered with
  | none => simp [filterMoves]
  | some f =>
    simp only [filterMoves, decide_eq_true_eq, Option.some.injEq, forall_eq']
    omega

/-- The zone of a code by the first of the three codes above it (R130). -/
theorem zoneOf_some (p : Params) (f : Nat) : zoneOf p (some f) =
    if f < p.warmCode then .normal else if f < p.hotCode then .warm else if f < p.criticalCode then .hot else .critical := rfl

/-- The Thermal Monitor after a result that moves the zone: code and zone are held and ZONE is raised (R130). -/
def State.rezoned (s : State) (r : Nat) : State :=
  { s with thermal := { filtered := some r, zone := zoneOf s.params (some r) } }.raise flagZone

theorem State.takeTemp_kept (s : State) (r : Nat) (h : ¬ filterMoves s.params.hysteresis s.thermal.filtered r = true) : s.takeTemp r = s :=
  if_neg h

theorem State.takeTemp_sameZone (s : State) (r : Nat) (h : filterMoves s.params.hysteresis s.thermal.filtered r = true)
    (hz : zoneOf s.params (some r) = s.thermal.zone) : s.takeTemp r = { s with thermal := { s.thermal with filtered := some r } } :=
  (if_pos h).trans (if_pos hz)

theorem State.takeTemp_newZone (s : State) (r : Nat) (h : filterMoves s.params.hysteresis s.thermal.filtered r = true)
    (hz : zoneOf s.params (some r) ≠ s.thermal.zone) : s.takeTemp r = (s.rezoned r).takeZone (zoneOf s.params (some r)) :=
  (if_pos h).trans (if_neg hz)

/-- A CRITICAL zone in RUNNING or HOLD trips the part under an effective ceiling of 0 (R132, R141). -/
theorem State.takeZone_trips (s : State) (h : s.alloc.opState = .running ∨ s.alloc.opState = .hold) :
    s.takeZone .critical = State.enterTrip { s with alloc := { s.alloc with effCeiling := 0 } } := by
  rw [State.takeZone, if_pos ⟨rfl, h⟩]
  simp only [effectiveCeiling, Zone.factor, Nat.mul_zero, Nat.zero_div]

/-- Any other zone report recomputes the effective ceiling (R132). -/
theorem State.takeZone_effective (s : State) (z : Zone) (h : z ≠ .critical ∨ s.alloc.opState = .standby ∨ s.alloc.opState = .trip) :
    s.takeZone z = s.setEffective (s.alloc.ceiling * z.factor / 100) := by
  refine if_neg fun x => ?_
  rcases h with h | h | h
  · exact h x.1
  · rcases x.2 with hx | hx <;> exact nomatch h.symm.trans hx
  · rcases x.2 with hx | hx <;> exact nomatch h.symm.trans hx

/-- The Thermal Monitor has taken a result that moves the zone and the Allocator the effective ceiling `e` that it brings (R130, R132): `s`
before, `t` after. -/
structure Rezones (s : State) (r e : Nat) (t : State) : Prop where
  thermal : t.thermal = { filtered := some r, zone := zoneOf s.params (some r) }
  effCeiling : t.alloc.effCeiling = e
  opState : t.alloc.opState = s.alloc.opState
  ceiling : t.alloc.ceiling = s.alloc.ceiling
  flag : t.attention.flags.get flagZone = .raisedUnseen
  fits : (∀ p, s.load p ≤ e) → s.alloc.reclaiming = false → t = { s.rezoned r with alloc := { s.alloc with
    effCeiling := e
    passDue := s.alloc.passDue || (decide (s.alloc.effCeiling < e) && s.alloc.opState == OpState.running) } }

theorem State.rezones (s : State) (r e : Nat) : Rezones s r e ((s.rezoned r).setEffective e) where
  thermal := (untouched_setEffective _ e).thermal
  effCeiling := (effCeiling_setEffective _ e).1
  opState := (effCeiling_setEffective _ e).2
  ceiling := (untouched_setEffective _ e).ceiling
  flag := by
    rw [State.flags_setEffective _ e flagZone (by decide) (by decide), State.rezoned, State.flag_raise, if_pos rfl]
  fits := (s.rezoned r).setEffective_fits e

theorem Rezones.sampler {s t : State} {r e : Nat} (R : Rezones s r e t) (m : Sampler) :
    Rezones { s with sampler := m } r e { t with sampler := m } :=
  ⟨R.thermal, R.effCeiling, R.opState, R.ceiling, R.flag, fun hp hr => congrArg (fun x : State => { x with sampler := m }) (R.fits hp hr)⟩

/-! ### A TEMP result -/

/-- A scan result of TEMP goes to the thermal filter, and the Sampler has no part in the result (R97, R129). -/
theorem State.deliver_scan_temp (s : State) (m : Sampler) (raw : Int) :
    State.deliver { s with sampler := m } { kind := .scan, channel := tempChannel } raw =
      State.takeTemp { s with sampler := m } (s.resultOf tempChannel raw) := rfl

/-- A TEMP result that moves the zone and does not trip: in both orders of R94 the Allocator takes the effective ceiling (R130, R132). -/
theorem exec_conversionEnd_rezones (s : State) (raw : Int) (late : Bool) (R : State → Prop) {r : Nat} {z : Zone}
    (hcur : s.sampler.current = some { kind := .scan, channel := tempChannel }) (hr : r = s.resultOf tempChannel raw)
    (hz : z = zoneOf s.params (some r)) (moves : filterMoves s.params.hysteresis s.thermal.filtered r = true) (new : z ≠ s.thermal.zone)
    (rest : z ≠ .critical ∨ s.alloc.opState = .standby ∨ s.alloc.opState = .trip)
    (hR : ∀ m, R { (State.rezoned { s with sampler := m } r).setEffective (s.alloc.ceiling * z.factor / 100) with sampler := s.sampler }) :
    ∃ t, R t ∧ exec (.conversionEnd ⟨raw, late⟩) s = .next { t with sampler := s.sampler.choose } := by
  subst hr hz
  refine exec_conversionEnd_of_operation s raw late _ (fun x => (x.rezoned _).setEffective _) R hcur (fun m => ?_)
    (fun m => (untouched_setEffective _ _).sampler) hR
  exact (s.deliver_scan_temp m raw).trans ((State.takeTemp_newZone { s with sampler := m } _ moves new).trans
    (State.takeZone_effective _ _ rest))

/-- A TEMP result that brings CRITICAL in RUNNING or HOLD trips the part, in both orders of R94 (R132, R141). -/
theorem exec_conversionEnd_trips (s : State) (raw : Int) (late : Bool) {r : Nat}
    (hcur : s.sampler.current = some { kind := .scan, channel := tempChannel }) (hr : r = s.resultOf tempChannel raw)
    (moves : filterMoves s.params.hysteresis s.thermal.filtered r = true) (new : zoneOf s.params (some r) ≠ s.thermal.zone)
    (critical : zoneOf s.params (some r) = .critical) (works : s.alloc.opState = .running ∨ s.alloc.opState = .hold) :
    ∃ t, EntersTrip { s.rezoned r with alloc := { s.alloc with effCeiling := 0 } } t ∧
      exec (.conversionEnd ⟨raw, late⟩) s = .next { t with sampler := s.sampler.choose } := by
  subst hr
  refine exec_conversionEnd_of_operation s raw late _
    (fun x => State.enterTrip { x.rezoned (s.resultOf tempChannel raw) with alloc := { x.alloc with effCeiling := 0 } }) _ hcur (fun m => ?_)
    (fun m => (untouched_enterTrip _).sampler) fun m => EntersTrip.sampler (m := m) (State.entersTrip _)
  refine (s.deliver_scan_temp m raw).trans ((State.takeTemp_newZone { s with sampler := m } _ moves new).trans ?_)
  rw [show zoneOf _ _ = Zone.critical from critical]
  exact State.takeZone_trips _ works

end Sys2Proof.Machine

open Sys2Proof Sys2Proof.Machine

/-- Settles O50: the filter decides whether the result is taken, the zone whether it is reported, and the report is a trip or a recomputed
effective ceiling, the same in both orders of delivery and choice. -/
theorem tempFiltered : Obligations.TempFiltered := by
  refine ⟨⟨fun _ => rfl, fun p f h => ?_, fun p f h1 h2 => ?_, fun p f h1 h2 h3 => ?_, fun p f h1 h2 h3 => ?_, rfl, rfl, rfl, rfl⟩,
    fun s raw late hcur => ?_⟩
  · rw [zoneOf_some, if_pos h]
  · rw [zoneOf_some, if_neg h1.not_gt, if_pos h2]
  · rw [zoneOf_some, if_neg h1.not_gt, if_neg h2.not_gt, if_pos h3]
  · rw [zoneOf_some, if_neg h1.not_gt, if_neg h2.not_gt, if_neg h3.not_gt]
  · intro r taken z e v
    have moves : filterMoves s.params.hysteresis s.thermal.filtered r = true ↔ taken := filterMoves_iff _ _ _
    refine ⟨fun h => ?_, fun h hz => ?_, fun h hz hc hop => ?_, fun h hz rest => ⟨fun lists => ?_, ?_⟩⟩
    · exact exec_conversionEnd_of_deliver_keeps s s raw late _ hcur fun m =>
        (s.deliver_scan_temp m raw).trans (State.takeTemp_kept { s with sampler := m } r (mt moves.mp h))
    · exact exec_conversionEnd_of_deliver_keeps s { s with thermal := { s.thermal with filtered := some r } } raw late _ hcur fun m =>
        (s.deliver_scan_temp m raw).trans (State.takeTemp_sameZone { s with sampler := m } r (moves.mpr h) hz)
    · exact exec_conversionEnd_trips s raw late hcur rfl (moves.mpr h) hz hc hop
    · refine exec_conversionEnd_rezones s raw late (TakesEffective v e) hcur rfl rfl (moves.mpr h) hz rest fun m => ?_
      exact (State.takesEffective { v with sampler := m } e lists.2.2.1 fun i => (lists.2.2.2 i).mp).sampler s.sampler
    · obtain ⟨t, R, hexec⟩ := exec_conversionEnd_rezones s raw late (Rezones s r e) hcur rfl rfl (moves.mpr h) hz rest fun m =>
        (State.rezones { s with sampler := m } r e).sampler s.sampler
      exact ⟨_, hexec, R.thermal, R.effCeiling, R.opState, R.ceiling, R.flag, (R.sampler s.sampler.choose).fits⟩

end

section
/-!
The Clock Monitor (O28): what a hold reason that becomes set or clear does to the operating state, and CLOCK.RETURN and the end of a check
window by the clock state in force.
-/
set_option Elab.async false

namespace Sys2Proof.Machine

/-! ### A hold reason becomes set or clear -/

/-- RUNNING becomes HOLD and any other state stands (R154). -/
theorem State.alloc_holdIfRunning (s : State) : s.holdIfRunning.alloc =
    { s.alloc with opState := if s.alloc.opState = .running then .hold else s.alloc.opState } := by
  unfold State.holdIfRunning
  split
  · exact State.alloc_setAllWaitReasons _ _
  · rfl

theorem State.record_holdIfRunning (s : State) (i : RecIdx) : s.holdIfRunning.record i =
    { s.record i with life := if s.alloc.opState = .running then (s.life i).withReason .hold else s.life i } := by
  unfold State.holdIfRunning
  split
  · exact State.record_setAllWaitReasons _ _ i
  · rfl

/-- Only the operating state and the records' wait reasons move (R154). -/
theorem State.holdIfRunning_frame (s : State) : s.holdIfRunning =
    { s with alloc := s.holdIfRunning.alloc, pool := { s.pool with records := s.holdIfRunning.pool.records } } := by
  unfold State.holdIfRunning
  split
  · rfl
  · rfl

theorem State.clock_holdIfRunning (s : State) : s.holdIfRunning.clock = s.clock := by rw [State.holdIfRunning_frame]

/-- HOLD with no reason left becomes RUNNING, which is a trigger, and any other state stands (R154). -/
theorem State.runIfReleased_eq (s : State) : s.runIfReleased = { s with alloc := { s.alloc with
    opState := if s.alloc.opState = .hold ∧ s.alloc.holdPort = false ∧ s.alloc.holdClock = false then .running else s.alloc.opState
    passDue := s.alloc.passDue ||
      (s.alloc.opState == .hold && !s.alloc.holdPort && !s.alloc.holdClock && !s.alloc.reclaiming) } } := by
  unfold State.runIfReleased
  split
  · rename_i h
    rw [State.enterWork_eq]
    cases hp : s.alloc.holdPort <;> cases hc : s.alloc.holdClock <;> simp [h]
  · rename_i h
    have hb : (s.alloc.opState == OpState.hold) = false := beq_eq_false_iff_ne.mpr h
    simp [h, hb]

/-! ### CLOCK.RETURN -/

theorem exec_clockReturn (s : State) (together : Bool) : exec (.clockReturn ⟨[], together⟩) s =
    .next (if s.clock.state ≠ .fallback then s.refuse .state
      else if s.clock.returnPending then s.refuse .busy
      else { s with clock := { s.clock with
        returnPending := true, goodWindows := 0, windowPredatesReturn := !(together && s.clock.windowFresh) } }.ok) := rfl

/-! ### The end of a check window -/

/-- The window's count is latched and the next window begins (R146). -/
def State.latched (s : State) (cycles : Nat) : State :=
  { s with clock := s.clock.latch (min 65535 (s.clock.windowCycles + cycles)) }

theorem exec_checkWindowEnd (s : State) (cycles : Nat) : exec (.checkWindowEnd cycles) s =
    .next ((s.latched cycles).judgeWindow (windowGood s.params (min 65535 (s.clock.windowCycles + cycles)))) := rfl

/-- The band includes both its ends (R146). -/
theorem windowGood_iff (p : Params) (n : Nat) : windowGood p n = true ↔ p.bandLow ≤ n ∧ n ≤ p.bandHigh := by
  simp [windowGood]

theorem windowGood_eq_false {p : Params} {n : Nat} (h : ¬ (p.bandLow ≤ n ∧ n ≤ p.bandHigh)) : windowGood p n = false :=
  Bool.eq_false_iff.mpr (mt (windowGood_iff p n).mp h)

section
variable (s : State) (good : Bool)

theorem State.judgeWindow_starting (h : s.clock.state = .starting) :
    s.judgeWindow good = if good then { s with clock := { s.clock with state := .reference } } else s := by
  simp only [State.judgeWindow, h]

theorem State.judgeWindow_reference (h : s.clock.state = .reference) : s.judgeWindow good = if good then s else s.clockLoss := by
  simp only [State.judgeWindow, h]

theorem State.judgeWindow_fallback (h : s.clock.state = .fallback) : s.judgeWindow good = s.judgeFallback good := by
  simp only [State.judgeWindow, h]

/-- With no return pending a window in FALLBACK is not judged (R149). -/
theorem State.judgeFallback_idle (h : s.clock.returnPending = false) : s.judgeFallback good = s := if_pos h

/-- The window in progress at CLOCK.RETURN does not count (R149). -/
theorem State.judgeFallback_predates (h : s.clock.returnPending = true) (hw : s.clock.windowPredatesReturn = true) :
    s.judgeFallback good = { s with clock := { s.clock with windowPredatesReturn := false } } := by
  simp [State.judgeFallback, h, hw]

/-- A bad window that counts cancels the return (R150). -/
theorem State.judgeFallback_bad (h : s.clock.returnPending = true) (hw : s.clock.windowPredatesReturn = false) :
    s.judgeFallback false = s.returnCancel := by
  simp [State.judgeFallback, h, hw]

/-- The first good window that counts (R150). -/
theorem State.judgeFallback_first (h : s.clock.returnPending = true) (hw : s.clock.windowPredatesReturn = false)
    (h0 : s.clock.goodWindows = 0) : s.judgeFallback true = { s with clock := { s.clock with goodWindows := 1 } } := by
  simp [State.judgeFallback, h, hw, h0]

/-- The second good window in a row completes the return (R150). -/
theorem State.judgeFallback_second (h : s.clock.returnPending = true) (hw : s.clock.windowPredatesReturn = false)
    (h1 : s.clock.goodWindows = 1) : s.judgeFallback true = s.returnComplete := by
  simp [State.judgeFallback, h, hw, h1]

end

/-! ### The loss of the reference and the return to it -/

/-- The state in which a loss of the reference sets the hold reason CLOCK (R148, R151). -/
def State.losing (s : State) : State :=
  { s with clock := { s.clock.noReturn with state := .fallback }, alloc := { s.alloc with holdClock := true } }.raise 18

theorem State.clockLoss_eq (s : State) : s.clockLoss = s.losing.holdIfRunning := rfl

/-- A return that completes: REFERENCE, CLOCK raised, and HOLD left for RUNNING unless PORT is set (R150, R151, R154). -/
theorem State.returnComplete_eq (s : State) : s.returnComplete = { s with
    clock := { s.clock.noReturn with state := .reference }
    alloc := { s.alloc with
      holdClock := false
      opState := if s.alloc.opState = OpState.hold ∧ s.alloc.holdPort = false then .running else s.alloc.opState
      passDue := s.alloc.passDue || (s.alloc.opState == OpState.hold && !s.alloc.holdPort && !s.alloc.reclaiming) } }.raise 18 := by
  rw [State.returnComplete, State.clearHoldClock, State.runIfReleased_eq]
  simp [State.raise, flagClock]

end Sys2Proof.Machine

open Sys2Proof Sys2Proof.Machine

/-- Settles O28: CLOCK.RETURN by the clock state and the pending return, a check window by the clock state, and in FALLBACK by the return
pending. -/
theorem checkWindowJudged : Obligations.CheckWindowJudged := by
  refine ⟨fun s together => ⟨fun h => ?_, fun h hp => ?_, fun h hp => ?_⟩,
    fun cycles s => ⟨fun h hg => ?_, fun h hg => ?_, fun h hg => ?_, fun h hg => ?_⟩,
    fun cycles s h => ⟨fun hp => ?_, fun hp hw => ?_, fun hp hw => ⟨fun hg => ?_, fun hg h0 => ?_, fun hg h1 => ?_⟩⟩⟩
  · rw [exec_clockReturn, if_pos h]
  · rw [exec_clockReturn, if_neg (not_not.mpr h), if_pos hp]
  · rw [exec_clockReturn, if_neg (not_not.mpr h), hp]
    rfl
  · rw [exec_checkWindowEnd, (windowGood_iff _ _).mpr hg, State.judgeWindow_starting (s.latched cycles) _ h]
    rfl
  · rw [exec_checkWindowEnd, windowGood_eq_false hg, State.judgeWindow_starting (s.latched cycles) _ h]
    rfl
  · rw [exec_checkWindowEnd, (windowGood_iff _ _).mpr hg, State.judgeWindow_reference (s.latched cycles) _ h]
    rfl
  · refine ⟨(s.latched cycles).losing.holdIfRunning, ?_, State.clock_holdIfRunning _, State.alloc_holdIfRunning _,
      State.record_holdIfRunning _, ?_⟩
    · rw [exec_checkWindowEnd, windowGood_eq_false hg, State.judgeWindow_reference (s.latched cycles) _ h, State.clockLoss_eq]
      rfl
    · rw [State.clock_holdIfRunning]
      exact State.holdIfRunning_frame _
  · rw [exec_checkWindowEnd, State.judgeWindow_fallback (s.latched cycles) _ h, State.judgeFallback_idle (s.latched cycles) _ hp]
    rfl
  · rw [exec_checkWindowEnd, State.judgeWindow_fallback (s.latched cycles) _ h, State.judgeFallback_predates (s.latched cycles) _ hp hw]
    rfl
  · rw [exec_checkWindowEnd, windowGood_eq_false hg, State.judgeWindow_fallback (s.latched cycles) _ h,
      State.judgeFallback_bad (s.latched cycles) hp hw]
    rfl
  · rw [exec_checkWindowEnd, (windowGood_iff _ _).mpr hg, State.judgeWindow_fallback (s.latched cycles) _ h,
      State.judgeFallback_first (s.latched cycles) hp hw h0]
    rfl
  · rw [exec_checkWindowEnd, (windowGood_iff _ _).mpr hg, State.judgeWindow_fallback (s.latched cycles) _ h,
      State.judgeFallback_second (s.latched cycles) hp hw h1, State.returnComplete_eq]
    rfl

end

section
/-!
What decides the operating state: the commands that can move it, a hold reason, a ceiling, the Clock Monitor, the Thermal Monitor or a
parameter (`Instr.steers`), and that every other command leaves them all standing (`exec_stands`).
-/
set_option Elab.async false

namespace Sys2Proof.Machine

/-- The operating state, the hold reasons, the ceilings, the Clock Monitor, the Thermal Monitor and the parameters stand. -/
structure Stands (s t : State) : Prop where
  opState : t.alloc.opState = s.alloc.opState
  holdPort : t.alloc.holdPort = s.alloc.holdPort
  holdClock : t.alloc.holdClock = s.alloc.holdClock
  ceiling : t.alloc.ceiling = s.alloc.ceiling
  effCeiling : t.alloc.effCeiling = s.alloc.effCeiling
  clock : t.clock = s.clock
  thermal : t.thermal = s.thermal
  params : t.params = s.params

theorem Stands.refl (s : State) : Stands s s := ⟨rfl, rfl, rfl, rfl, rfl, rfl, rfl, rfl⟩

theorem Stands.trans {s t u : State} (h : Stands s t) (k : Stands t u) : Stands s u where
  opState := k.opState.trans h.opState
  holdPort := k.holdPort.trans h.holdPort
  holdClock := k.holdClock.trans h.holdClock
  ceiling := k.ceiling.trans h.ceiling
  effCeiling := k.effCeiling.trans h.effCeiling
  clock := k.clock.trans h.clock
  thermal := k.thermal.trans h.thermal
  params := k.params.trans h.params

/-- A change of other components. -/
theorem Stands.aside {s t : State} (opState : t.alloc.opState = s.alloc.opState := by rfl)
    (holdPort : t.alloc.holdPort = s.alloc.holdPort := by rfl) (holdClock : t.alloc.holdClock = s.alloc.holdClock := by rfl)
    (ceiling : t.alloc.ceiling = s.alloc.ceiling := by rfl) (effCeiling : t.alloc.effCeiling = s.alloc.effCeiling := by rfl)
    (clock : t.clock = s.clock := by rfl) (thermal : t.thermal = s.thermal := by rfl) (params : t.params = s.params := by rfl) :
    Stands s t :=
  ⟨opState, holdPort, holdClock, ceiling, effCeiling, clock, thermal, params⟩

theorem Steady.stands {s t : State} (h : Steady s t) : Stands s t :=
  ⟨h.opState, h.holdPort, h.holdClock, h.ceiling, h.effCeiling, h.clock, h.thermal, h.params⟩

theorem Quiet.stands {s t : State} (h : Quiet s t) : Stands s t := h.toSteady.stands

/-! ### Arguments and answers -/

theorem stands_answer (s : State) (c : ReplyCode) (l : List Byte) : Stands s (s.answer c l) := .aside

theorem stands_refuse (s : State) (c : ReplyCode) : Stands s (s.refuse c) := .aside

theorem Stands.ok {s t : State} (h : Stands s t) : Stands s t.ok := h.trans .aside

theorem stands_noArgs (s : State) (args : List Byte) (f : State → State) (h : Stands s (f s)) : Stands s (s.noArgs args f) := by
  unfold State.noArgs
  split
  · exact h
  · exact stands_refuse s _

theorem stands_withHandle (s : State) (v : Nat) (f : RecIdx → State → State) (h : ∀ i, Stands s (f i s)) :
    Stands s (s.withHandle v f) := by
  unfold State.withHandle
  split
  · exact h _
  · exact stands_refuse s _

/-- A command that names a record by its handle. -/
theorem stands_onRecord (s : State) (args : List Byte) (f : RecIdx → State → State) (h : ∀ i, Stands s (f i s)) :
    Stands s (s.handleArg args fun v s => s.withHandle v f) := by
  unfold State.handleArg
  split
  · exact stands_withHandle s _ f h
  · exact stands_refuse s _

theorem stands_bayArg (s : State) (args : List Byte) (f : BayIdx → State → State) (h : ∀ b, Stands s (f b s)) :
    Stands s (s.bayArg args f) := by
  unfold State.bayArg
  split
  · split
    · exact h _
    · exact stands_refuse s _
  · exact stands_refuse s _

theorem stands_channelArg (s : State) (args : List Byte) (f : Channel → State → State) (h : ∀ c, Stands s (f c s)) :
    Stands s (s.channelArg args f) := by
  unfold State.channelArg
  split
  · split
    · exact h _
    · exact stands_refuse s _
  · exact stands_refuse s _

theorem stands_flagMaskArg (s : State) (args : List Byte) (f : Nat → State → State) (h : ∀ m, Stands s (f m s)) :
    Stands s (s.flagMaskArg args f) := by
  unfold State.flagMaskArg
  split
  · exact h _
  · exact stands_refuse s _

/-! ### The Host Port -/

theorem stands_create (s : State) (i : RecIdx) (rest : List RecIdx) (u : Terms) : Stands s (s.create i rest u) := by
  rw [(s.creates i rest u).frame]
  exact .aside

theorem stands_allocFor (s : State) (b : BayIdx) (r : Request) : Stands s (s.allocFor b r) := by
  unfold State.allocFor
  split
  · exact stands_refuse s _
  · split
    · exact .aside
    · exact (stands_create s _ _ _).trans (stands_answer _ _ _)

theorem stands_retireGraceful (s : State) (i : RecIdx) : Stands s (s.retireGraceful i) := by
  unfold State.retireGraceful
  split
  · exact (quiet_enterSpent s _ _ _).stands.ok
  · exact (quiet_enterRetiring s _ _).stands.ok
  · exact (Stands.refl s).ok
  · exact stands_refuse s _
  · exact stands_refuse s _

theorem stands_retireImmediate (s : State) (i : RecIdx) : Stands s (s.retireImmediate i) := by
  unfold State.retireImmediate
  split
  · exact (quiet_enterSpent s _ _ _).stands.ok
  · exact (quiet_enterSpent s _ _ _).stands.ok
  · exact (quiet_enterSpent s _ _ _).stands.ok
  · exact stands_refuse s _
  · exact stands_refuse s _

theorem stands_retire (s : State) (args : List Byte) : Stands s (s.retire args) := by
  unfold State.retire
  split
  · split
    · exact stands_withHandle s _ _ (stands_retireGraceful s)
    · split
      · exact stands_withHandle s _ _ (stands_retireImmediate s)
      · exact stands_refuse s _
  · exact stands_refuse s _

theorem stands_reclaimRecord (s : State) (i : RecIdx) (b : BayIdx) : Stands s (s.reclaimRecord i b) := by
  have h := s.reclaimRecord_frame i b
  exact .aside (by rw [h]) (by rw [h]) (by rw [h]) (by rw [h]) (by rw [h]) (by rw [h]) (by rw [h]) (by rw [h])

theorem stands_setGates (s : State) (mask : Nat) (g : Gate) : Stands s (s.setGates mask g) := by
  unfold State.setGates
  dsimp only
  split
  · exact .trans .aside (quiet_trigger _).stands
  · exact .aside

theorem stands_openWindow (s : State) (i : RecIdx) (t : Terms) : Stands s (s.openWindow i t) := by
  unfold State.openWindow
  split
  · exact stands_refuse s _
  · exact .aside

theorem stands_putWindow (s : State) (f : EditWindow → EditWindow) : Stands s (s.putWindow f) := by
  unfold State.putWindow
  split
  · exact .aside
  · exact stands_refuse s _

theorem stands_closeWindow (s : State) : Stands s s.closeWindow := .aside

theorem stands_commitWindow (s : State) (w : EditWindow) : Stands s (s.commitWindow w) := by
  unfold State.commitWindow
  split
  · split
    · exact (stands_closeWindow s).trans (stands_refuse _ _)
    · exact (((quiet_applyChange s _ _ _).trans (quiet_markStale _ _)).stands.trans (stands_closeWindow _)).ok
  · exact (stands_closeWindow s).trans (stands_refuse _ _)

theorem stands_unblock (s : State) (b : BayIdx) : Stands s (s.unblock b) := by
  unfold State.unblock
  split
  · exact (Stands.refl s).ok
  · split
    · exact stands_refuse s _
    · exact Stands.ok (.trans .aside (quiet_trigger _).stands)

/-! ### The Bay Link -/

theorem stands_endVisit (s : State) (f : Bay → Bay) : Stands s (s.endVisit f) := .aside

theorem stands_miss (s : State) : Stands s s.miss := by
  unfold State.miss
  split
  · exact .refl s
  · exact stands_endVisit s _

theorem stands_report (s : State) (f : BayIdx → State → State) (hf : ∀ b t, Stands t (f b t)) : Stands s (s.report f) := by
  unfold State.report
  split
  · exact .refl s
  · exact (stands_endVisit s _).trans (hf _ _)

theorem stands_writeAnswer (s : State) (b : BayIdx) (c : AnswerCode) (h : Nat) : Stands s (s.writeAnswer b c h) := .aside

/-- A request that names a record by a link handle. -/
theorem stands_onLinkHandle (s : State) (b : BayIdx) (h : Nat) (f : RecIdx → State → State) (hf : ∀ i, Stands s (f i s)) :
    Stands s (s.withLinkHandle b h f) := by
  unfold State.withLinkHandle
  split
  · exact hf _
  · exact stands_writeAnswer _ _ _ _

theorem stands_askFor (s : State) (b : BayIdx) (r : Request) : Stands s (s.askFor b r) := by
  unfold State.askFor
  split
  · exact stands_writeAnswer _ _ _ _
  · split
    · exact stands_writeAnswer _ _ _ _
    · split
      · exact .aside
      · exact (stands_create s _ _ _).trans (stands_writeAnswer _ _ _ _)

theorem stands_changeRecord (s : State) (b : BayIdx) (h : Nat) (i : RecIdx) (c : EditCopy) : Stands s (s.changeRecord b h i c) := by
  unfold State.changeRecord
  split
  · exact stands_writeAnswer _ _ _ _
  · exact ((quiet_applyChange s _ _ _).trans (quiet_markStale _ _)).stands.trans (stands_writeAnswer _ _ _ _)

theorem stands_takeChange (s : State) (b : BayIdx) (h requested floor : Nat) : Stands s (s.takeChange b h requested floor) := by
  unfold State.takeChange
  split
  · exact stands_writeAnswer _ _ _ _
  · refine stands_onLinkHandle s b h _ fun i => ?_
    split
    · exact stands_writeAnswer _ _ _ _
    · exact stands_changeRecord _ _ _ _ _

/-! ### Time -/

theorem stands_recordEvent (s : State) (i : RecIdx) (due : Life → Bool) : Stands s (s.recordEvent i due) := by
  unfold State.recordEvent
  split
  · split
    · exact (steady_takeOutstanding _ _).stands
    · exact .refl s
  · exact .refl s

/-! ### Results of a bay -/

theorem stands_endCalibration (s : State) (b : BayIdx) (r : CalResult) : Stands s (s.endCalibration b r) :=
  .trans .aside ((quiet_addEvent _ _ _).trans (quiet_trigger _)).stands

theorem stands_countCharge (s : State) (b : BayIdx) (r : Nat) : Stands s (s.countCharge b r) := by
  unfold State.countCharge
  split
  · exact .refl s
  · split
    · exact .refl s
    · exact .aside

theorem stands_judgeScan (s : State) (b : BayIdx) (r : Nat) : Stands s (s.judgeScan b r) := by
  unfold State.judgeScan
  split
  · split
    · exact .aside
    · exact .refl s
  · split
    · exact (quiet_rampEnd _ _).stands
    · exact .refl s
  · exact .refl s
  · split
    · exact .aside
    · exact .refl s

theorem stands_strike (s : State) (i : RecIdx) : Stands s (s.strike i) := by
  unfold State.strike
  split
  · dsimp only
    split
    · exact .trans .aside (quiet_enterRetiring _ _ _).stands
    · exact .aside
  · exact .refl s

theorem stands_judgeConfirm (s : State) (b : BayIdx) (r : Nat) : Stands s (s.judgeConfirm b r) := by
  unfold State.judgeConfirm
  split
  · split
    · exact stands_strike _ _
    · exact .refl s
  · split
    · exact (quiet_rampEnd _ _).stands
    · exact .refl s
  · exact .refl s
  · split
    · exact (quiet_blockBay _ _ _).stands
    · exact .refl s

theorem stands_quietRule (s : State) (b : BayIdx) (r : Nat) : Stands s (s.quietRule b r) := by
  unfold State.quietRule
  split
  · exact stands_endCalibration _ _ _
  · exact .refl s

theorem stands_completeCalibration (s : State) (b : BayIdx) (sum : Int) : Stands s (s.completeCalibration b sum) := by
  unfold State.completeCalibration
  split
  · exact .trans .aside (stands_endCalibration _ _ _)
  · exact stands_endCalibration _ _ _

theorem stands_calSample (s : State) (b : BayIdx) (raw : Int) : Stands s (s.calSample b raw) := by
  unfold State.calSample
  split
  · split
    · exact stands_endCalibration _ _ _
    · split
      · exact stands_completeCalibration _ _ _
      · exact .aside
  · exact .refl s

theorem stands_scanBay (s : State) (b : BayIdx) (r : Nat) :
    Stands s ((((s.latest b r).countCharge b r).judgeScan b r).quietRule b r) := by
  have h : Stands s (s.latest b r) := .aside
  exact ((h.trans (stands_countCharge _ _ _)).trans (stands_judgeScan _ _ _)).trans (stands_quietRule _ _ _)

theorem stands_confirmBay (s : State) (b : BayIdx) (r : Nat) : Stands s ((s.latest b r).judgeConfirm b r) :=
  .trans .aside (stands_judgeConfirm _ _ _)

theorem stands_converting (s : State) : Stands s s.converting.1 := by
  unfold State.converting
  split
  · exact .refl s
  · exact .aside

theorem stands_nextConversion (s : State) : Stands s s.nextConversion := .aside

/-! ### The commands that leave them standing -/

/-- An outcome is a next state in which they stand. -/
def StandsNext (s : State) (o : Host.Outcome State Fault Refusal) : Prop :=
  ∃ t, o = .next t ∧ Stands s t

theorem Stands.next {s t : State} (h : Stands s t) : StandsNext s (.next t) := ⟨t, rfl, h⟩

theorem execBayGate_stands (args : List Byte) (s : State) : StandsNext s (execBayGate args s) := by
  refine Stands.next ?_
  split
  · split
    · exact (stands_setGates s _ _).ok
    · split
      · exact (stands_setGates s _ _).ok
      · exact stands_refuse s _
  · exact stands_refuse s _

theorem execAlloc_stands (args : List Byte) (s : State) : StandsNext s (execAlloc args s) := by
  refine Stands.next ?_
  split
  · split
    · split
      · exact stands_allocFor s _ _
      · exact stands_refuse s _
    · exact stands_refuse s _
  · exact stands_refuse s _

theorem execLookupBay_stands (args : List Byte) (s : State) : StandsNext s (execLookupBay args s) := by
  refine (stands_bayArg s args _ fun b => ?_).next
  split
  · exact stands_answer s _ _
  · exact stands_refuse s _

theorem execReclaim_stands (args : List Byte) (s : State) : StandsNext s (execReclaim args s) := by
  refine (stands_onRecord s args _ fun i => ?_).next
  split
  · exact (stands_reclaimRecord s _ _).ok
  · exact stands_refuse s _

theorem execRenew_stands (args : List Byte) (s : State) : StandsNext s (execRenew args s) := by
  refine (stands_onRecord s args _ fun i => ?_).next
  split
  · exact (Stands.refl s).ok
  · exact (quiet_reloadLease s i).stands.ok
  · exact stands_refuse s _

theorem execEditOpen_stands (args : List Byte) (s : State) : StandsNext s (execEditOpen args s) := by
  refine (stands_onRecord s args _ fun i => ?_).next
  split
  · exact stands_openWindow s i _
  · exact stands_openWindow s i _
  · exact stands_refuse s _

theorem execEditPut_stands (args : List Byte) (s : State) : StandsNext s (execEditPut args s) := by
  refine Stands.next ?_
  split
  · split
    · exact stands_putWindow s _
    · exact stands_refuse s _
  · exact stands_refuse s _

theorem execEditTaper_stands (args : List Byte) (s : State) : StandsNext s (execEditTaper args s) := by
  refine Stands.next ?_
  split
  · exact stands_putWindow s _
  · exact stands_refuse s _

theorem execEditCommit_stands (args : List Byte) (s : State) : StandsNext s (execEditCommit args s) := by
  refine (stands_noArgs s args _ ?_).next
  split
  · exact stands_refuse s _
  · split
    · exact (stands_closeWindow s).trans (stands_refuse _ _)
    · split
      · exact (stands_closeWindow s).ok
      · exact stands_commitWindow s _

theorem execEditDrop_stands (args : List Byte) (s : State) : StandsNext s (execEditDrop args s) := by
  refine (stands_noArgs s args _ ?_).next
  split
  · exact (stands_closeWindow s).ok
  · exact stands_refuse s _

theorem execCalStart_stands (args : List Byte) (s : State) : StandsNext s (execCalStart args s) := by
  refine (stands_bayArg s args _ fun b => ?_).next
  split
  · exact stands_refuse s _
  · exact .aside

theorem execSampleRequest_stands (args : List Byte) (s : State) : StandsNext s (execSampleRequest args s) := by
  refine (stands_channelArg s args _ fun c => ?_).next
  split
  · exact stands_refuse s _
  · exact .aside

/-- A command that only reports. -/
theorem noArgs_answer_stands (s : State) (args : List Byte) (l : State → List Byte) :
    StandsNext s (.next (s.noArgs args fun s => s.answer .ok (l s))) :=
  (stands_noArgs s args _ (stands_answer s _ _)).next

/-- A change of the Attention Unit. -/
theorem stands_attention (s : State) (a : Attention) : Stands s { s with attention := a } := .aside

theorem execFlagsRead_stands (args : List Byte) (s : State) : StandsNext s (execFlagsRead args s) :=
  (stands_noArgs s args _ ((stands_attention s s.attention.see).trans (stands_answer _ _ _))).next

theorem stands_clearFlags (s : State) (m : Nat) : Stands s (s.clearFlags m) := by
  unfold State.clearFlags
  exact .aside

theorem execFlagsClear_stands (args : List Byte) (s : State) : StandsNext s (execFlagsClear args s) :=
  (stands_flagMaskArg s args (fun m s => (s.clearFlags m).ok) fun m => (stands_clearFlags s m).ok).next

theorem execFlagsEnable_stands (args : List Byte) (s : State) : StandsNext s (execFlagsEnable args s) :=
  (stands_flagMaskArg s args _ fun m => (stands_attention s { s.attention with enables := BitVec.ofNat 22 m }).ok).next

theorem execTransactionAbort_stands (sent : List Byte) (s : State) : StandsNext s (execTransactionAbort sent s) := by
  refine Stands.next ?_
  exact .aside

theorem execPollSend_stands (s : State) : StandsNext s (execPollSend s) := by
  refine Stands.next ?_
  split
  · exact .aside
  · exact .refl s

theorem execAsk_stands (cls : Byte) (requested floor : Half) (lease mask value : Byte) (s : State) :
    StandsNext s (execAsk cls requested floor lease mask value s) := by
  refine (stands_report s _ fun b t => ?_).next
  split
  · exact stands_askFor t b _
  · exact stands_writeAnswer _ _ _ _

theorem execLinkRenew_stands (h : Half) (s : State) : StandsNext s (execLinkRenew h s) := by
  refine (stands_report s _ fun b t => stands_onLinkHandle t b _ _ fun i => ?_).next
  split
  · exact stands_writeAnswer _ _ _ _
  · exact (quiet_reloadLease t i).stands.trans (stands_writeAnswer _ _ _ _)

theorem execRelease_stands (h : Half) (s : State) : StandsNext s (execRelease h s) := by
  refine (stands_report s _ fun b t => stands_onLinkHandle t b _ _ fun i => ?_).next
  split
  · exact (quiet_enterSpent t i _ _).stands.trans (stands_writeAnswer _ _ _ _)
  · exact (quiet_enterRetiring t i _).stands.trans (stands_writeAnswer _ _ _ _)
  · exact stands_writeAnswer _ _ _ _

theorem execAdmissionPass_stands (s : State) : StandsNext s (execAdmissionPass s) := by
  refine Stands.next ?_
  split
  · exact .refl s
  · split
    · exact (quiet_pass s).stands
    · exact .aside

theorem execPeriodBoundary_stands (later : List BoundaryPart) (s : State) : StandsNext s (execPeriodBoundary later s) := by
  refine Stands.next ?_
  split
  · exact ((steady_finishBoundary s).trans (steady_boundary _ _)).stands
  · exact .refl s

theorem execMillisecondTick_stands (s : State) : StandsNext s (execMillisecondTick s) := by
  refine Stands.next ?_
  split
  · exact ((steady_finishBoundary s).trans (steady_timer _ _)).stands
  · exact .refl s

theorem execStrikeWindowEnd_stands (i : RecIdx) (s : State) : StandsNext s (execStrikeWindowEnd i s) := by
  refine Stands.next ?_
  split
  · split
    · exact (steady_takeOutstanding _ _).stands
    · exact .refl s
  · exact .refl s

theorem execCloseWindowEnd_stands (s : State) : StandsNext s (execCloseWindowEnd s) := by
  refine Stands.next ?_
  split
  · exact (steady_takeOutstanding _ _).stands
  · exact .refl s

theorem execSettleEnd_stands (b : BayIdx) (s : State) : StandsNext s (execSettleEnd b s) := by
  refine Stands.next ?_
  split
  · exact (steady_takeOutstanding _ _).stands
  · exact .refl s

/-- The commands and events that can move the operating state, a hold reason, a ceiling, the Clock Monitor, the Thermal Monitor or a
parameter (R131, R133, R145 to R152, R154 to R159, R161, R162). -/
def steers : Instr → Bool
  | .deviceReset => true
  | .start _ => true
  | .stop _ => true
  | .restart _ => true
  | .holdSet _ => true
  | .holdClear _ => true
  | .resume _ => true
  | .configWrite _ => true
  | .ceilingWrite _ => true
  | .clockReturn _ => true
  | .signalPeriodStart => true
  | .conversionEnd _ => true
  | .checkWindowEnd _ => true
  | _ => false

/-- Every other command and event leaves them standing. -/
theorem exec_stands (c : Instr) (s : State) (h : steers c = false) : StandsNext s (exec c s) := by
  cases c with
  | configRead args => exact noArgs_answer_stands s args _
  | bayGate args => exact execBayGate_stands args s
  | alloc args => exact execAlloc_stands args s
  | lookupHandle args => exact (stands_onRecord s args _ fun i => stands_answer s _ _).next
  | lookupBay args => exact execLookupBay_stands args s
  | retireGraceful args => exact (stands_retire s args).next
  | retireImmediate args => exact (stands_retire s args).next
  | reclaim args => exact execReclaim_stands args s
  | renew args => exact execRenew_stands args s
  | editOpen args => exact execEditOpen_stands args s
  | editPut args => exact execEditPut_stands args s
  | editTaper args => exact execEditTaper_stands args s
  | editCommit args => exact execEditCommit_stands args s
  | editDrop args => exact execEditDrop_stands args s
  | queueRead args => exact noArgs_answer_stands s args _
  | orderRead args => exact noArgs_answer_stands s args _
  | loadRead args => exact noArgs_answer_stands s args _
  | bayRead args => exact (stands_bayArg s args _ fun _ => stands_answer s _ _).next
  | bayUnblock args => exact (stands_bayArg s args _ fun b => stands_unblock s b).next
  | calStart args => exact execCalStart_stands args s
  | sampleRequest args => exact execSampleRequest_stands args s
  | sampleRead args => exact (stands_channelArg s args _ fun _ => stands_answer s _ _).next
  | clockRead args => exact noArgs_answer_stands s args _
  | flagsRead args => exact execFlagsRead_stands args s
  | flagsClear args => exact execFlagsClear_stands args s
  | flagsEnable args => exact execFlagsEnable_stands args s
  | identRead args => exact noArgs_answer_stands s args _
  | badCommand code args => exact (stands_refuse s _).next
  | transactionAbort sent => exact execTransactionAbort_stands sent s
  | pollSend => exact execPollSend_stands s
  | replyWindowExpiry => exact (stands_miss s).next
  | badFrame => exact (stands_miss s).next
  | foreignFrame => exact (stands_miss s).next
  | reportNone => exact (stands_report s _ fun _ t => .refl t).next
  | ask cls requested floor lease mask value => exact execAsk_stands cls requested floor lease mask value s
  | change handle requested floor => exact (stands_report s _ fun b t => stands_takeChange t b _ _ _).next
  | linkRenew handle => exact execLinkRenew_stands handle s
  | release handle => exact execRelease_stands handle s
  | admissionPass => exact execAdmissionPass_stands s
  | periodBoundary later => exact execPeriodBoundary_stands later s
  | leaseEnd i => exact (stands_recordEvent s i _).next
  | taperStepAdvance i => exact (stands_recordEvent s i _).next
  | taperEnd i => exact (stands_recordEvent s i _).next
  | rampTimeout i => exact (stands_recordEvent s i _).next
  | strikeWindowEnd i => exact execStrikeWindowEnd_stands i s
  | closeWindowEnd => exact execCloseWindowEnd_stands s
  | settleEnd b => exact execSettleEnd_stands b s
  | millisecondTick => exact execMillisecondTick_stands s
  | _ => cases h

end Sys2Proof.Machine
end

section
/-!
The hold reasons and the operating state, and the hold reason CLOCK and the clock state (O56): what the commands that steer the part do to
them, each taken by itself.
-/
set_option Elab.async false

namespace Sys2Proof.Machine

/-- RUNNING stays free of hold reasons and HOLD keeps one; the hold reason CLOCK stays in line with FALLBACK (R145, R154). -/
structure Aligns (s t : State) : Prop where
  holds : s.HoldsExact → t.HoldsExact
  clock : s.ClockExact → t.ClockExact

theorem Aligns.refl (s : State) : Aligns s s := ⟨id, id⟩

theorem Aligns.trans {s t u : State} (h : Aligns s t) (k : Aligns t u) : Aligns s u := ⟨k.holds ∘ h.holds, k.clock ∘ h.clock⟩

theorem holdsExact_congr {s t : State} (opState : t.alloc.opState = s.alloc.opState) (holdPort : t.alloc.holdPort = s.alloc.holdPort)
    (holdClock : t.alloc.holdClock = s.alloc.holdClock) (h : s.HoldsExact) : t.HoldsExact := by
  rw [State.HoldsExact, opState, holdPort, holdClock]
  exact h

theorem clockExact_congr {s t : State} (holdClock : t.alloc.holdClock = s.alloc.holdClock) (state : t.clock.state = s.clock.state)
    (returnPending : t.clock.returnPending = s.clock.returnPending) (goodWindows : t.clock.goodWindows = s.clock.goodWindows)
    (h : s.ClockExact) : t.ClockExact := by
  rw [State.ClockExact, holdClock, state, returnPending, goodWindows]
  exact h

theorem Stands.aligns {s t : State} (h : Stands s t) : Aligns s t where
  holds := holdsExact_congr h.opState h.holdPort h.holdClock
  clock := clockExact_congr h.holdClock (by rw [h.clock]) (by rw [h.clock]) (by rw [h.clock])

/-- A change of other components. -/
theorem Aligns.aside {s t : State} (opState : t.alloc.opState = s.alloc.opState := by rfl)
    (holdPort : t.alloc.holdPort = s.alloc.holdPort := by rfl) (holdClock : t.alloc.holdClock = s.alloc.holdClock := by rfl)
    (state : t.clock.state = s.clock.state := by rfl) (returnPending : t.clock.returnPending = s.clock.returnPending := by rfl)
    (goodWindows : t.clock.goodWindows = s.clock.goodWindows := by rfl) : Aligns s t :=
  ⟨holdsExact_congr opState holdPort holdClock, clockExact_congr holdClock state returnPending goodWindows⟩

/-- Operations that leave the other blocks and the hold reasons alone keep CLOCK in line. -/
theorem Kept.clockExact {s t : State} (h : Kept s t) : s.ClockExact → t.ClockExact :=
  clockExact_congr h.holdClock (by rw [h.clock]) (by rw [h.clock]) (by rw [h.clock])

/-- Outside FALLBACK nothing of a return is left, and CLOCK is clear (R147, R150, R151). -/
theorem clockExact_away {s : State} (state : s.clock.state ≠ .fallback) (holdClock : s.alloc.holdClock = false)
    (returnPending : s.clock.returnPending = false) (goodWindows : s.clock.goodWindows = 0) : s.ClockExact := by
  refine ⟨iff_of_false ?_ state, fun h => ?_, by omega, fun _ => goodWindows⟩
  · rw [holdClock]
    exact nofun
  · rw [returnPending] at h
    cases h

/-- In FALLBACK CLOCK is set, and at most one good window is counted, for a pending return (R150, R151). -/
theorem clockExact_fallback {s : State} (state : s.clock.state = .fallback) (holdClock : s.alloc.holdClock = true)
    (count : s.clock.goodWindows ≤ 1) (idle : s.clock.returnPending = false → s.clock.goodWindows = 0) : s.ClockExact :=
  ⟨iff_of_true holdClock state, fun _ => state, count, idle⟩

/-! ### The operating state -/

/-- STANDBY and TRIP ask nothing of the hold reasons (R154). -/
theorem holdsExact_idle {s : State} (h : s.alloc.opState = .standby ∨ s.alloc.opState = .trip) : s.HoldsExact := by
  refine ⟨fun e => ?_, fun e => ?_⟩
  · rw [e] at h
    exact h.elim nofun nofun
  · rw [e] at h
    exact h.elim nofun nofun

/-- START and RESUME enter HOLD exactly under a hold reason (R154, R155, R158). -/
theorem holdsExact_enterWork (s : State) : s.enterWork.HoldsExact := by
  rw [State.enterWork_eq]
  cases hp : s.alloc.holdPort <;> cases hc : s.alloc.holdClock <;> simp [State.HoldsExact, hp, hc]

/-- RUNNING is left with a hold reason set (R154). -/
theorem holdsExact_holdIfRunning {s : State} (h : s.alloc.holdPort = true ∨ s.alloc.holdClock = true) : s.holdIfRunning.HoldsExact := by
  rw [State.HoldsExact, State.alloc_holdIfRunning]
  refine ⟨fun e => ?_, fun _ => h⟩
  dsimp only at e
  split at e
  · cases e
  · contradiction

/-- HOLD is left with no hold reason set (R154). -/
theorem holdsExact_runIfReleased {s : State} (h : s.alloc.opState = .running → s.alloc.holdPort = false ∧ s.alloc.holdClock = false) :
    s.runIfReleased.HoldsExact := by
  unfold State.runIfReleased
  split
  · exact holdsExact_enterWork s
  · rename_i ho
    exact ⟨h, fun e => absurd e ho⟩

theorem clockExact_enterWork {s : State} (h : s.ClockExact) : s.enterWork.ClockExact := by
  rw [State.enterWork_eq]
  exact h

theorem clockExact_holdIfRunning {s : State} (h : s.ClockExact) : s.holdIfRunning.ClockExact := by
  rw [State.ClockExact, State.alloc_holdIfRunning, State.clock_holdIfRunning]
  exact h

theorem clockExact_runIfReleased {s : State} (h : s.ClockExact) : s.runIfReleased.ClockExact := by
  rw [State.runIfReleased_eq]
  exact h

theorem aligns_enterWork (s : State) : Aligns s s.enterWork := ⟨fun _ => holdsExact_enterWork s, clockExact_enterWork⟩

/-- The hold reason PORT becomes set (R157). -/
theorem aligns_setHoldPort (s : State) : Aligns s s.setHoldPort where
  holds _ := holdsExact_holdIfRunning (.inl rfl)
  clock h := clockExact_holdIfRunning (s := { s with alloc := { s.alloc with holdPort := true } }) h

/-- The hold reason PORT becomes clear (R157). -/
theorem aligns_clearHoldPort (s : State) : Aligns s s.clearHoldPort where
  holds := fun ⟨running, _⟩ => holdsExact_runIfReleased fun e => ⟨rfl, (running e).2⟩
  clock h := clockExact_runIfReleased (s := { s with alloc := { s.alloc with holdPort := false } }) h

/-! ### Ceilings, zones and trips -/

theorem aligns_setEffective (s : State) (n : Nat) : Aligns s (s.setEffective n) where
  holds := holdsExact_congr (effCeiling_setEffective s n).2 (untouched_setEffective s n).holdPort (untouched_setEffective s n).holdClock
  clock := (untouched_setEffective s n).toKept.clockExact

/-- TRIP stands apart from the hold reasons (R141, R154). -/
theorem aligns_enterTrip (s : State) : Aligns s s.enterTrip where
  holds _ := holdsExact_idle (.inr (by rw [s.entersTrip.frame]))
  clock := (untouched_enterTrip s).toKept.clockExact

theorem aligns_takeZone (s : State) (z : Zone) : Aligns s (s.takeZone z) := by
  unfold State.takeZone
  split
  · exact .trans .aside (aligns_enterTrip _)
  · exact aligns_setEffective _ _

theorem aligns_deriveZone (s : State) : Aligns s s.deriveZone := by
  unfold State.deriveZone
  dsimp only
  split
  · exact .refl s
  · exact .trans .aside (aligns_takeZone _ _)

theorem aligns_takeTemp (s : State) (r : Nat) : Aligns s (s.takeTemp r) := by
  unfold State.takeTemp
  split
  · exact .trans .aside (aligns_deriveZone _)
  · exact .refl s

/-! ### Conversions -/

theorem aligns_deliverScan (s : State) (c : Channel) (r : Nat) : Aligns s (s.deliverScan c r) := by
  unfold State.deliverScan
  split
  · exact (stands_scanBay s _ r).aligns
  · split
    · split
      · exact .aside
      · exact .refl s
    · exact aligns_takeTemp _ _

theorem aligns_deliverConfirm (s : State) (c : Channel) (r : Nat) : Aligns s (s.deliverConfirm c r) := by
  unfold State.deliverConfirm
  split
  · exact (stands_confirmBay s _ r).aligns
  · split
    · exact aligns_enterTrip s
    · exact .refl s

theorem aligns_deliver (s : State) (v : Conversion) (raw : Int) : Aligns s (s.deliver v raw) := by
  unfold State.deliver
  split
  · exact aligns_deliverScan _ _ _
  · exact aligns_deliverConfirm _ _ _
  · exact .aside
  · split
    · exact (stands_calSample _ _ _).aligns
    · exact .refl s

/-! ### The clock state -/

/-- A loss of the reference sets the hold reason CLOCK with FALLBACK (R148, R151). -/
theorem aligns_clockLoss (s : State) : Aligns s s.clockLoss := by
  rw [State.clockLoss_eq]
  refine ⟨fun _ => holdsExact_holdIfRunning (.inr rfl), fun _ => clockExact_holdIfRunning ?_⟩
  exact clockExact_fallback rfl rfl (Nat.zero_le 1) fun _ => rfl

/-- A return that completes clears the hold reason CLOCK with FALLBACK (R150, R151). -/
theorem aligns_returnComplete (s : State) : Aligns s s.returnComplete where
  holds := fun ⟨running, _⟩ => holdsExact_runIfReleased fun e => ⟨(running e).1, rfl⟩
  clock _ := by
    rw [State.returnComplete_eq]
    exact clockExact_away ClockState.noConfusion rfl rfl rfl

/-- In FALLBACK the hold reason CLOCK stands until a return completes (R149, R150, R151). -/
theorem aligns_judgeFallback (s : State) (good : Bool) (hs : s.clock.state = .fallback) : Aligns s (s.judgeFallback good) := by
  unfold State.judgeFallback
  split
  · exact .refl s
  · rename_i hp
    split
    · exact .aside
    · split
      · exact ⟨id, fun ⟨state, _⟩ => clockExact_fallback hs (state.mpr hs) (Nat.zero_le 1) fun _ => rfl⟩
      · split
        · exact ⟨id, fun ⟨state, _⟩ => clockExact_fallback hs (state.mpr hs) (le_refl 1) fun h => absurd h hp⟩
        · exact aligns_returnComplete s

/-- STARTING is left without a hold reason or a pending return (R147). -/
theorem clockExact_started {s : State} (hs : s.clock.state = .starting) (h : s.ClockExact) :
    State.ClockExact { s with clock := { s.clock with state := .reference } } := by
  obtain ⟨state, pending, -, idle⟩ := h
  have away : s.clock.state ≠ .fallback := by
    rw [hs]
    exact nofun
  have returnPending : s.clock.returnPending = false := Bool.eq_false_iff.mpr fun e => away (pending e)
  exact clockExact_away ClockState.noConfusion (Bool.eq_false_iff.mpr fun e => away (state.mp e)) returnPending (idle returnPending)

theorem aligns_judgeWindow (s : State) (good : Bool) : Aligns s (s.judgeWindow good) := by
  cases hs : s.clock.state with
  | starting =>
    rw [s.judgeWindow_starting good hs]
    split
    · exact ⟨id, clockExact_started hs⟩
    · exact .refl s
  | reference =>
    rw [s.judgeWindow_reference good hs]
    split
    · exact .refl s
    · exact aligns_clockLoss s
  | fallback =>
    rw [s.judgeWindow_fallback good hs]
    exact aligns_judgeFallback s good hs

/-! ### START, STOP, RESTART and CONFIG.WRITE -/

theorem aligns_startUp (s : State) : Aligns s s.startUp := by
  unfold State.startUp
  dsimp only
  split
  · exact .trans .aside (aligns_enterTrip _)
  · exact .trans .aside (aligns_enterWork _)

/-- STOP leaves the clock state and CLOCK (R156). -/
theorem aligns_shutDown (s : State) : Aligns s s.shutDown where
  holds _ := holdsExact_idle (.inl (by simp only [State.shutDown, State.alloc_setAllWaitReasons]))
  clock h := (quiet_setAllWaitReasons _ _).toKept.clockExact ((steady_finishBoundary s).toKept.clockExact h)

/-- RESTART keeps the clock state and CLOCK (R159). -/
theorem aligns_restarted (s : State) : Aligns s s.restarted := by
  rw [State.restarted_eq]
  exact (steady_finishBoundary s).stands.aligns.trans ⟨fun _ => holdsExact_idle (.inl rfl), clockExact_congr rfl rfl rfl rfl⟩

theorem aligns_writeParam (s : State) (n v : Nat) : Aligns s (s.writeParam n v) := by
  unfold State.writeParam
  split
  · exact .refl s
  · dsimp only
    split
    · exact .trans .aside (aligns_deriveZone _)
    · exact .aside

theorem Aligns.ok {s t : State} (h : Aligns s t) : Aligns s t.ok := h.trans .aside

theorem aligns_configWrite (s : State) (n v : Nat) : Aligns s (s.configWrite n v) := by
  unfold State.configWrite
  split
  · exact .aside
  · split
    · exact .aside
    · split
      · exact .aside
      · exact (aligns_writeParam s n v).ok

/-! ### Every command -/

/-- An outcome is a next state in line when `s` is. -/
def AlignsNext (s : State) (o : Host.Outcome State Fault Refusal) : Prop :=
  ∃ t, o = .next t ∧ Aligns s t

theorem Aligns.next {s t : State} (h : Aligns s t) : AlignsNext s (.next t) := ⟨t, rfl, h⟩

/-- A command without arguments. -/
theorem aligns_noArgs (s : State) (args : List Byte) (f : State → State) (h : Aligns s (f s)) :
    AlignsNext s (.next (s.noArgs args f)) := by
  refine Aligns.next ?_
  unfold State.noArgs
  split
  · exact h
  · exact (stands_refuse s _).aligns

theorem execDeviceReset_aligns (s : State) : AlignsNext s (execDeviceReset s) := by
  obtain ⟨-, -, -, -, -, -, holds, -, -, -, clock, -⟩ := invariantsHoldAtReset
  exact ⟨_, rfl, fun _ => holds, fun _ => clock⟩

theorem execStart_aligns (args : List Byte) (s : State) : AlignsNext s (execStart args s) := by
  refine aligns_noArgs s args _ ?_
  split
  · exact (aligns_startUp s).ok
  · exact (stands_refuse s _).aligns

theorem execStop_aligns (args : List Byte) (s : State) : AlignsNext s (execStop args s) := by
  refine aligns_noArgs s args _ ?_
  split
  · exact (Aligns.refl s).ok
  · split
    · exact (stands_refuse s _).aligns
    · exact (aligns_shutDown s).ok

theorem execHoldSet_aligns (args : List Byte) (s : State) : AlignsNext s (execHoldSet args s) := by
  refine aligns_noArgs s args _ (Aligns.ok ?_)
  split
  · exact .refl s
  · exact aligns_setHoldPort s

theorem execHoldClear_aligns (args : List Byte) (s : State) : AlignsNext s (execHoldClear args s) := by
  refine aligns_noArgs s args _ (Aligns.ok ?_)
  split
  · exact aligns_clearHoldPort s
  · exact .refl s

theorem execResume_aligns (args : List Byte) (s : State) : AlignsNext s (execResume args s) := by
  refine aligns_noArgs s args _ ?_
  split
  · exact (aligns_enterWork s).ok
  · exact (stands_refuse s _).aligns

theorem execConfigWrite_aligns (args : List Byte) (s : State) : AlignsNext s (execConfigWrite args s) := by
  refine Aligns.next ?_
  split
  · exact aligns_configWrite s _ _
  · exact (stands_refuse s _).aligns

theorem execCeilingWrite_aligns (args : List Byte) (s : State) : AlignsNext s (execCeilingWrite args s) := by
  refine Aligns.next ?_
  split
  · split
    · exact Aligns.ok (.trans .aside (aligns_setEffective _ _))
    · exact (stands_refuse s _).aligns
  · exact (stands_refuse s _).aligns

/-- A return is made pending only in FALLBACK, with no good window (R149). -/
theorem execClockReturn_aligns (arrival : ReturnArrival) (s : State) : AlignsNext s (execClockReturn arrival s) := by
  refine aligns_noArgs s arrival.args _ ?_
  split
  · exact (stands_refuse s _).aligns
  · rename_i hs
    split
    · exact (stands_refuse s _).aligns
    · exact ⟨id, fun ⟨state, _⟩ => clockExact_fallback (not_not.mp hs) (state.mpr (not_not.mp hs)) (Nat.zero_le 1) fun _ => rfl⟩

/-- The Clock Monitor's millisecond leaves the clock state and the return (R152). -/
theorem execSignalPeriodStart_aligns (s : State) : AlignsNext s (execSignalPeriodStart s) :=
  Aligns.next .aside

theorem execConversionEnd_aligns (reading : Reading) (s : State) : AlignsNext s (execConversionEnd reading s) := by
  have h := (stands_converting s).aligns
  refine Aligns.next ?_
  split
  · exact (h.trans (stands_nextConversion _).aligns).trans (aligns_deliver _ _ _)
  · exact (h.trans (aligns_deliver _ _ _)).trans (stands_nextConversion _).aligns

theorem execCheckWindowEnd_aligns (cycles : Nat) (s : State) : AlignsNext s (execCheckWindowEnd cycles s) :=
  Aligns.next (.trans .aside (aligns_judgeWindow (s.latched cycles) _))

/-- Every command and event keeps the part in line; one that does not steer it leaves the line standing. -/
theorem exec_aligns (c : Instr) (s : State) : AlignsNext s (exec c s) := by
  cases hc : steers c with
  | false =>
    obtain ⟨t, e, h⟩ := exec_stands c s hc
    exact ⟨t, e, h.aligns⟩
  | true =>
    cases c with
    | deviceReset => exact execDeviceReset_aligns s
    | start args => exact execStart_aligns args s
    | stop args => exact execStop_aligns args s
    | restart args => exact aligns_noArgs s args (fun s => s.restarted.ok) (aligns_restarted s).ok
    | holdSet args => exact execHoldSet_aligns args s
    | holdClear args => exact execHoldClear_aligns args s
    | resume args => exact execResume_aligns args s
    | configWrite args => exact execConfigWrite_aligns args s
    | ceilingWrite args => exact execCeilingWrite_aligns args s
    | clockReturn arrival => exact execClockReturn_aligns arrival s
    | signalPeriodStart => exact execSignalPeriodStart_aligns s
    | conversionEnd reading => exact execConversionEnd_aligns reading s
    | checkWindowEnd cycles => exact execCheckWindowEnd_aligns cycles s
    | _ => cases hc

/-- Every step keeps the part in line; the queue is not of it. -/
theorem step_aligns {s t : State} (h : step s = .next t) : Aligns s t := by
  unfold step at h
  split at h
  · cases h
    exact .refl s
  · rename_i c rest _
    obtain ⟨u, e, a⟩ := exec_aligns c { s with pending := rest }
    rw [e] at h
    cases h
    exact .trans .aside a

end Sys2Proof.Machine

open Sys2Proof Sys2Proof.Machine

/-- Settles O56: a hold reason that becomes set or clear takes the operating state with it, the clock state takes the hold reason CLOCK with
it, and no other command but reset, START, STOP, RESTART, RESUME and a trip moves them. -/
theorem holdsStayExact : Obligations.HoldsStayExact :=
  ⟨fun _ _ h e => (step_aligns e).holds h, fun _ _ h e => (step_aligns e).clock h⟩

end

section
/-!
START and STOP: the part started before a state is entered, and the part stopped once the parts of the latest boundary are taken (O5, O6).
-/
set_option Elab.async false

namespace Sys2Proof.Machine

/-! ### START -/

/-- The part with its timer started, before a state is entered (R155). -/
def State.started (s : State) : State :=
  { s with timer := { Timer.reset with running := true }, closeWindowLeft := s.params.closeWindow }.modBays fun y => { y with closeCount := 0 }

theorem State.bay_started (s : State) (b : BayIdx) : s.started.bay b = { s.bay b with closeCount := 0 } :=
  State.bay_modBays _ _ b

theorem exec_start_refused (s : State) (h : s.alloc.opState ≠ .standby) : exec (.start []) s = .next (s.refuse .state) :=
  congrArg _ (if_neg h)

/-- In STANDBY the zone decides between TRIP and the states of work (R141, R155). -/
theorem exec_start_standby (s : State) (h : s.alloc.opState = .standby) :
    exec (.start []) s = .next (if s.thermal.zone = .critical then s.started.enterTrip else s.started.enterWork).ok :=
  congrArg _ (if_pos h)

/-! ### STOP -/

theorem exec_stop_standby (s : State) (h : s.alloc.opState = .standby) : exec (.stop []) s = .next s.ok :=
  congrArg _ (if_pos h)

theorem exec_stop (s : State) (h : s.alloc.opState ≠ .standby) :
    exec (.stop []) s = .next (if s.anyHoldsLoad then s.refuse .state else s.shutDown.ok) :=
  congrArg _ (if_neg h)

/-- The part stopped, once the parts of the latest boundary are taken (R57, R156, log 6). -/
def State.halted (u : State) : State :=
  { u with timer := Timer.stopped, alloc := { u.alloc with opState := .standby } }.setAllWaitReasons .hold

theorem State.shutDown_eq (s : State) : s.shutDown = s.finishBoundary.halted := rfl

theorem State.record_halted (u : State) (i : RecIdx) :
    u.halted.pool.records.get i = { u.record i with life := (u.life i).withReason .hold } :=
  State.record_setAllWaitReasons _ .hold i

/-- What stopping leaves beside the records (R57, R156). -/
theorem State.halted_frame (u : State) : u.halted.ok = { u with
    pool := { u.pool with records := u.halted.pool.records }
    alloc := { u.alloc with opState := .standby }
    timer := { running := false, ms := 0, position := 0, outstanding := [], found := Vector.replicate 16 none }
    reply := some { code := .ok, body := [] } } := by
  simp only [State.ok, State.answer, State.halted, State.setAllWaitReasons, Timer.stopped, Timer.reset]

end Sys2Proof.Machine

open Sys2Proof Sys2Proof.Machine

/-- Settles O5: by the operating state, and in STANDBY by the zone, under which the started part enters TRIP, HOLD or RUNNING. -/
theorem startTaken : Obligations.StartTaken := by
  refine fun s => ⟨exec_start_refused s, fun ho hz => ⟨s.started.bays, s.bay_started, ?_⟩, fun ho hz =>
    ⟨s.started.bays, s.started.enterTrip, s.bay_started, s.started.entersTrip, ?_⟩⟩
  · rw [exec_start_standby s ho, if_neg hz, State.enterWork_eq]
    rfl
  · rw [exec_start_standby s ho, if_pos hz]

/-- Settles O6: by the operating state and by whether a record holds load; a taken STOP stops the part that the boundary leaves. -/
theorem stopTaken : Obligations.StopTaken := by
  refine fun s => ⟨exec_stop_standby s, fun ho held => ?_, fun ho free => ⟨_, s.finishBoundary.record_halted, ?_⟩,
    finishBoundary_eq s⟩
  · rw [exec_stop s ho, if_pos (s.anyHoldsLoad_iff.mpr held)]
  · have unheld : ¬ s.anyHoldsLoad = true := fun held => by
      obtain ⟨i, hi⟩ := s.anyHoldsLoad_iff.mp held
      exact Bool.false_ne_true ((free i).symm.trans hi)
    rw [exec_stop s ho, if_neg unheld, s.shutDown_eq, State.halted_frame]

end

section
/-!
CONFIG.WRITE: the checks in their order, and the zone that a written thermal code moves (O10).
-/
set_option Elab.async false

namespace Sys2Proof.Machine

/-! ### The parameters as a list of numbers -/

theorem paramRange_eq (n : Nat) : paramRange n = parameterRanges[n]? := by
  rcases Nat.lt_or_ge n 18 with h | h
  · interval_cases n <;> rfl
  · obtain ⟨k, rfl⟩ := Nat.exists_eq_add_of_le' h
    rfl

theorem paramInRange_iff (n v : Nat) :
    paramInRange n v = true ↔ ∃ r, parameterRanges[n]? = some r ∧ r.1 ≤ v ∧ v ≤ r.2 := by
  rw [paramInRange, paramRange_eq]
  cases parameterRanges[n]? <;> simp

theorem Params.ordered_iff (p : Params) : p.ordered = true ↔ Machine.ordered p.values := by
  simp only [Params.ordered, Bool.and_eq_true, decide_eq_true_eq, and_assoc]
  rfl

/-- A write in range is a write of one number; the range of the squeeze classes is what their four bits hold (R161, R184). -/
theorem Params.values_write (p : Params) (n v : Nat) (h : paramInRange n v = true) : (p.write n v).values = p.values.set n v := by
  obtain ⟨r, hr, -, hv⟩ := (paramInRange_iff n v).mp h
  have hn : n < 18 := (List.getElem?_eq_some_iff.mp hr).1
  have fits : n = 10 → v < 16 := by
    rintro rfl
    cases hr
    exact Nat.lt_succ_of_le hv
  interval_cases n <;> simp [Params.values, Params.write, fits]

/-- The three thermal codes (R131). -/
theorem Params.codes_write (p : Params) (n v : Nat) (h : ¬ (n = 11 ∨ n = 12 ∨ n = 13)) :
    (p.write n v).warmCode = p.warmCode ∧ (p.write n v).hotCode = p.hotCode ∧ (p.write n v).criticalCode = p.criticalCode := by
  unfold Params.write
  split
  case h_12 | h_13 | h_14 => exact absurd (by decide) h
  all_goals exact ⟨rfl, rfl, rfl⟩

theorem zoneOf_write (p : Params) (n v : Nat) (h : ¬ (n = 11 ∨ n = 12 ∨ n = 13)) (f : Option Nat) :
    zoneOf (p.write n v) f = zoneOf p f := by
  obtain ⟨warm, hot, critical⟩ := p.codes_write n v h
  cases f with
  | none => rfl
  | some f => rw [zoneOf_some, zoneOf_some, warm, hot, critical]

/-! ### A zone derived again -/

theorem State.deriveZone_same (s : State) (h : zoneOf s.params s.thermal.filtered = s.thermal.zone) : s.deriveZone = s :=
  if_pos h

/-- A new zone is held and ZONE raised, before the Allocator takes the report (R130). -/
def State.zoned (s : State) (z : Zone) : State :=
  { s with thermal := { s.thermal with zone := z } }.raise flagZone

theorem State.deriveZone_new (s : State) (h : zoneOf s.params s.thermal.filtered ≠ s.thermal.zone) :
    s.deriveZone = (s.zoned (zoneOf s.params s.thermal.filtered)).takeZone (zoneOf s.params s.thermal.filtered) :=
  if_neg h

/-- In STANDBY with no load a new zone is held, ZONE is raised and the effective ceiling follows; there is no trip and no pass (R33, R39, R130,
R132, R141). -/
theorem State.deriveZone_standby (s : State) (new : zoneOf s.params s.thermal.filtered ≠ s.thermal.zone)
    (ho : s.alloc.opState = .standby) (hr : s.alloc.reclaiming = false) (empty : ∀ q, s.load q = 0) :
    s.deriveZone = { s.zoned (zoneOf s.params s.thermal.filtered) with
      alloc := { s.alloc with effCeiling := s.alloc.ceiling * (zoneOf s.params s.thermal.filtered).factor / 100 } } := by
  rw [s.deriveZone_new new]
  generalize zoneOf s.params s.thermal.filtered = z
  have rest : (s.alloc.opState == .running) = false := by rw [ho]; rfl
  rw [(s.zoned z).takeZone_effective z (.inr (.inl ho)),
    (s.zoned z).setEffective_fits _ (fun q => (empty q).le.trans (Nat.zero_le _)) hr]
  simp only [State.zoned, State.alloc_raise, rest, Bool.and_false, Bool.or_false]

/-- While the zone held is that of the filtered code, a write derives the zone again whichever parameter it is: one that is no thermal code,
and a value already held, leave it (R131). -/
theorem State.writeParam_eq (s : State) (n v : Nat) (h : s.thermal.zone = zoneOf s.params s.thermal.filtered) :
    s.writeParam n v = State.deriveZone { s with params := s.params.write n v } := by
  unfold State.writeParam
  split
  · rename_i held
    rw [held]
    exact (s.deriveZone_same h.symm).symm
  · dsimp only
    split
    · rfl
    · rename_i other
      exact (State.deriveZone_same _ ((zoneOf_write _ _ _ other _).trans h.symm)).symm

/-! ### The checks -/

theorem exec_configWrite (n hi lo : Byte) (s : State) :
    exec (.configWrite [n, hi, lo]) s = .next (s.configWrite n.toNat (u16 hi lo)) := rfl

theorem State.configWrite_outOfRange (s : State) (n v : Nat) (h : ¬ paramInRange n v = true) : s.configWrite n v = s.refuse .badArg :=
  if_pos (Bool.not_eq_true _ ▸ h)

theorem State.configWrite_state (s : State) (n v : Nat) (h : paramInRange n v = true) (ho : s.alloc.opState ≠ .standby) :
    s.configWrite n v = s.refuse .state :=
  (if_neg (Bool.not_eq_false _ ▸ h)).trans (if_pos ho)

/-- In range and in STANDBY the orderings decide (R161). -/
theorem State.configWrite_standby (s : State) (n v : Nat) (h : paramInRange n v = true) (ho : s.alloc.opState = .standby) :
    s.configWrite n v = if (s.params.write n v).ordered = false then s.refuse .badArg else (s.writeParam n v).ok :=
  (if_neg (Bool.not_eq_false _ ▸ h)).trans (if_neg (not_not.mpr ho))

end Sys2Proof.Machine

open Sys2Proof Sys2Proof.Machine

/-- Settles O10: the checks one after another, and for a write that is taken the zone derived again under the parameters written. -/
theorem configWriteTaken : Obligations.ConfigWriteTaken := by
  refine fun n hi lo s => ⟨fun out => ?_, fun r hr hlo hhi => ?_⟩
  · have outOfRange : ¬ paramInRange n.toNat (u16 hi lo) = true := fun h => by
      obtain ⟨r, hr, hv⟩ := (paramInRange_iff _ _).mp h
      exact out r hr hv
    rw [exec_configWrite, s.configWrite_outOfRange _ _ outOfRange]
  · have inRange := (paramInRange_iff _ _).mpr ⟨r, hr, hlo, hhi⟩
    have values := s.params.values_write _ _ inRange
    have order := (s.params.write n.toNat (u16 hi lo)).ordered_iff
    rw [values] at order
    rw [exec_configWrite]
    refine ⟨fun ho => ?_, fun ho broken => ?_, fun ho kept hz => ⟨_, values, fun same => ?_, fun new hr empty _ => ?_⟩⟩
    · rw [s.configWrite_state _ _ inRange ho]
    · rw [s.configWrite_standby _ _ inRange ho, if_pos (Bool.eq_false_iff.mpr (mt order.mp broken))]
    all_goals rw [s.configWrite_standby _ _ inRange ho, if_neg (Bool.not_eq_false _ ▸ order.mpr kept), s.writeParam_eq _ _ hz]
    · rw [State.deriveZone_same _ same]
    · rw [State.deriveZone_standby { s with params := s.params.write n.toNat (u16 hi lo) } new ho hr empty]
      rfl

end

section
/-!
BAY.GATE and BAY.UNBLOCK, with the pass trigger that each gives (O13).
-/
set_option Elab.async false

namespace Sys2Proof.Machine

/-! ### BAY.GATE -/

theorem exec_bayGate_badArg (hi lo v : Byte) (s : State) (h : 1 < v.toNat) : exec (.bayGate [hi, lo, v]) s = .next (s.refuse .badArg) :=
  congrArg _ ((if_neg (by omega)).trans (if_neg (by omega)))

theorem exec_bayGate (hi lo v : Byte) (s : State) (h : v.toNat ≤ 1) :
    exec (.bayGate [hi, lo, v]) s = .next (s.setGates (u16 hi lo) (if v.toNat = 0 then .opened else .shut)).ok := by
  refine congrArg Host.Outcome.next ?_
  dsimp only
  split
  · rfl
  · exact if_pos (by omega)

/-- The Bay Table with the gates of the mask set (R160). -/
def State.gatesSet (s : State) (mask : Nat) (g : Gate) : Vector Bay 16 :=
  Vector.ofFn fun b => if mask.testBit b.val then { s.bay b with gate := g } else s.bay b

theorem State.get_gatesSet (s : State) (mask : Nat) (g : Gate) (b : BayIdx) :
    (s.gatesSet mask g).get b = if mask.testBit b.val then { s.bay b with gate := g } else s.bay b := by
  simp [State.gatesSet, Vector.get_eq_getElem]

/-- Some gate of the mask is SHUT (R160). -/
theorem State.anyShut_iff (s : State) (mask : Nat) :
    (allBays.any fun b => mask.testBit b.val && (s.bay b).gate == .shut) = true ↔
      ∃ b : BayIdx, mask.testBit b.val = true ∧ (s.bay b).gate = .shut := by
  simp [allBays]

/-- The gates of the mask are set, and the command is one trigger where it opens a SHUT one (R39, R160). -/
theorem State.setGates_eq (s : State) (mask : Nat) (g : Gate) (due : Bool)
    (hdue : due = true ↔ s.alloc.opState = .running ∧ s.alloc.reclaiming = false ∧ g = .opened ∧
      ∃ b : BayIdx, mask.testBit b.val = true ∧ (s.bay b).gate = .shut) :
    s.setGates mask g = { s with bays := s.gatesSet mask g, alloc := { s.alloc with passDue := s.alloc.passDue || due } } := by
  rw [← s.anyShut_iff mask] at hdue
  unfold State.setGates
  dsimp only
  split
  · rename_i opens
    have : due = (s.alloc.opState == .running && !s.alloc.reclaiming) := by
      rw [Bool.eq_iff_iff, hdue]
      simp [opens]
    rw [State.trigger_eq, this]
    rfl
  · rename_i opens
    have : due = false := Bool.eq_false_iff.mpr fun h => by
      obtain ⟨-, -, opens'⟩ := hdue.mp h
      exact opens opens'
    rw [this, Bool.or_false]
    rfl

/-! ### BAY.UNBLOCK -/

theorem exec_bayUnblock_badArg (s : State) (b : Byte) (h : 15 < b.toNat) : exec (.bayUnblock [b]) s = .next (s.refuse .badArg) :=
  congrArg _ (s.bayArg_badArg b _ h)

theorem exec_bayUnblock (s : State) (b : Byte) (h : b.toNat < 16) : exec (.bayUnblock [b]) s = .next (s.unblock ⟨b.toNat, h⟩) :=
  congrArg _ (s.bayArg_of_lt b _ h)

theorem State.unblock_unblocked (s : State) (b : BayIdx) (h : (s.bay b).blockCause = .none) : s.unblock b = s.ok :=
  if_pos h

/-- A bay whose latest sample is above the stray threshold stays blocked (R110). -/
theorem State.unblock_stray (s : State) (b : BayIdx) (h : (s.bay b).blockCause ≠ .none)
    (above : s.params.strayThreshold < (s.bay b).latestSample) : s.unblock b = s.refuse .state :=
  (if_neg h).trans (if_pos above)

/-- The block cause is cleared, which is a trigger (R39, R110). -/
theorem State.unblock_cleared (s : State) (b : BayIdx) (h : (s.bay b).blockCause ≠ .none)
    (quiet : (s.bay b).latestSample ≤ s.params.strayThreshold) :
    s.unblock b = (State.trigger (s.setBay b { s.bay b with blockCause := .none })).ok :=
  (if_neg h).trans (if_neg quiet.not_gt)

end Sys2Proof.Machine

open Sys2Proof Sys2Proof.Machine

/-- Settles O13: the gate by its value and the trigger by the gates it finds SHUT; the block cause by the cause and the latest sample. -/
theorem bayGateAndUnblockTaken : Obligations.BayGateAndUnblockTaken := by
  refine ⟨fun hi lo v s => ⟨exec_bayGate_badArg hi lo v s, fun hv => ⟨_, s.get_gatesSet _ _, fun due hdue => ?_⟩⟩,
    fun s b => ⟨exec_bayUnblock_badArg s b, fun h => ⟨fun unblocked => ?_, fun blocked above => ?_, fun blocked quiet => ?_⟩⟩⟩
  · have opens : (if v.toNat = 0 then Gate.opened else .shut) = .opened ↔ v.toNat = 0 := by simp
    rw [exec_bayGate hi lo v s hv, s.setGates_eq _ _ due (by rwa [opens])]
  · rw [exec_bayUnblock s b h, s.unblock_unblocked _ unblocked]
  · rw [exec_bayUnblock s b h, s.unblock_stray _ blocked above]
  · rw [exec_bayUnblock s b h, s.unblock_cleared _ blocked quiet, State.trigger_eq]
    rfl

end

section
/-!
The poll schedule and the two ends of a visit: POLL_SEND, a miss and a good REPORT (O29, O31).
-/
set_option Elab.async false

namespace Sys2Proof.Machine

/-! ### The schedule -/

/-- How many times the schedule advances before it stands at bay 0 of a round numbered 0, where it skips no bay (R166). -/
def Link.toRoundZero (l : Link) : Nat :=
  (128 - (16 * l.round.val + l.position.val)) % 128

theorem Link.toRoundZero_lt (l : Link) : l.toRoundZero < skipBound := Nat.mod_lt _ (by decide)

/-- Outside round 0 each advance is one of them (R166). -/
theorem Link.toRoundZero_advance (l : Link) (h : l.round ≠ 0) : l.advance.toRoundZero + 1 = l.toRoundZero := by
  obtain ⟨round, position, phase, poll⟩ := l
  have hr : round.val ≠ 0 := fun e => h (Fin.ext e)
  unfold Link.toRoundZero Link.advance
  by_cases last : position = 15
  · subst last
    simp only [if_true, Fin.val_add]
    omega
  · have hp : position.val ≠ 15 := fun e => last (Fin.ext e)
    simp only [if_neg last, Fin.val_add]
    omega

/-- The schedule with skips enough to reach bay 0 of a round numbered 0 stops at the first bay to visit (R166). -/
theorem Link.seek_visits (present : BayIdx → Bool) (fuel : Nat) (l : Link) (enough : l.toRoundZero < fuel) :
    ∃ n < fuel, (∀ k < n, present (Link.advance^[k] l).position = false ∧ (Link.advance^[k] l).round ≠ 0) ∧
      Link.seek present fuel l = Link.advance^[n] l ∧
      (present (Link.advance^[n] l).position = true ∨ (Link.advance^[n] l).round = 0) := by
  induction fuel generalizing l with
  | zero => exact absurd enough (Nat.not_lt_zero _)
  | succ fuel ih =>
    by_cases visited : (present l.position || l.round == 0) = true
    · exact ⟨0, Nat.succ_pos _, fun k hk => absurd hk (Nat.not_lt_zero _), if_pos visited, by simpa using visited⟩
    · obtain ⟨absent, later⟩ : present l.position = false ∧ l.round ≠ 0 := by simpa using visited
      have closer := l.toRoundZero_advance later
      obtain ⟨n, hn, skipped, stops, visits⟩ := ih l.advance (by omega)
      refine ⟨n + 1, Nat.succ_lt_succ hn, fun k hk => ?_, (if_neg visited).trans stops, visits⟩
      cases k with
      | zero => exact ⟨absent, later⟩
      | succ k => exact skipped k (Nat.lt_of_succ_lt_succ hk)

/-! ### POLL_SEND -/

theorem exec_pollSend_visiting (s : State) (h : s.link.phase ≠ .none) : exec .pollSend s = .next s :=
  congrArg Host.Outcome.next (if_neg h)

theorem exec_pollSend (s : State) (h : s.link.phase = .none) :
    exec .pollSend s = .next { s.modBay s.nextVisit.position (fun y => { y with answer := none }) with
      link := { s.nextVisit with phase := .reply, lastPoll := some (s.pollFrame s.nextVisit.position) } } :=
  congrArg Host.Outcome.next (if_pos h)

/-! ### The end of a visit -/

theorem State.miss_visit (s : State) (h : s.link.phase ≠ .none) : s.miss = s.endVisit Bay.missed := if_neg h

theorem State.miss_unvisited (s : State) (h : s.link.phase = .none) : s.miss = s := if_pos h

theorem State.report_unvisited (s : State) (f : BayIdx → State → State) (h : s.link.phase = .none) : s.report f = s := if_pos h

/-- Silence, a bad frame and a foreign frame are a miss (R168). -/
theorem exec_miss (s : State) (c : Instr) (h : c ∈ [Instr.replyWindowExpiry, .badFrame, .foreignFrame]) : exec c s = .next s.miss := by
  simp only [List.mem_cons, List.not_mem_nil, or_false] at h
  rcases h with rfl | rfl | rfl
  all_goals rfl

/-- A request, and NONE with it, is taken as a good REPORT (R170). -/
theorem exec_report (s : State) (cls lease mask value : Byte) (h requested floor : Half) (c : Instr)
    (hc : c ∈ [Instr.reportNone, .ask cls requested floor lease mask value, .change h requested floor, .linkRenew h, .release h]) :
    ∃ f, exec c s = .next (s.report f) := by
  simp only [List.mem_cons, List.not_mem_nil, or_false] at hc
  rcases hc with rfl | rfl | rfl | rfl | rfl
  all_goals exact ⟨_, rfl⟩

end Sys2Proof.Machine

open Sys2Proof Sys2Proof.Machine

/-- Settles O29: the schedule's search stops at the first bay to visit, since bay 0 of a round numbered 0 is never far enough to exhaust it. -/
theorem pollSent : Obligations.PollSent := by
  refine fun s => ⟨exec_pollSend_visiting s, fun idle => ?_, fun _ => rfl⟩
  obtain ⟨n, hn, skipped, stops, visits⟩ :=
    Link.seek_visits (fun b => (s.bay b).presence == .present) skipBound s.link s.link.toRoundZero_lt
  refine ⟨n, s.nextVisit, (s.modBay s.nextVisit.position fun y => { y with answer := none }).bays, hn, fun k hk => ?_, stops, ?_,
    fun b => ?_, exec_pollSend s idle⟩
  · obtain ⟨absent, later⟩ := skipped k hk
    refine ⟨?_, later⟩
    cases e : (s.bay (Link.advance^[k] s.link).position).presence with
    | absent => rfl
    | present => rw [e] at absent; exact Bool.noConfusion absent
  · rw [show s.nextVisit = _ from stops]
    exact visits.imp_left eq_of_beq
  · rcases eq_or_ne b s.nextVisit.position with rfl | other
    · rw [if_pos rfl]
      exact s.bay_modBay_self _ _
    · rw [if_neg other]
      exact (s.bay_modBay _ _ b).trans (if_neg other)

/-- Settles O31: a miss and a report are each the end of the visit with their own change of the bay, and neither is taken outside one. -/
theorem visitEnds : Obligations.VisitEnds := by
  refine ⟨fun s visit => ⟨_, rfl, fun c hc => ?_, rfl, ?_⟩, fun s cls lease mask value h requested floor idle c hc => ?_⟩
  · rw [exec_miss s c hc, s.miss_visit visit]
    rfl
  · exact congrArg Host.Outcome.next (s.report_visit _ visit)
  · rcases List.mem_append.mp (show c ∈ [Instr.replyWindowExpiry, .badFrame, .foreignFrame] ++ [Instr.reportNone,
      .ask cls requested floor lease mask value, .change h requested floor, .linkRenew h, .release h] from hc) with hc | hc
    · rw [exec_miss s c hc, s.miss_unvisited idle]
    · obtain ⟨f, hf⟩ := exec_report s cls lease mask value h requested floor c hc
      rw [hf, s.report_unvisited f idle]

end

section
/-!
The bytes of a frame as they are sent and as they are taken in a reply window, and the bits of a byte on the link (O30).
-/
set_option Elab.async false

namespace Sys2Proof

/-! ### Values in bytes -/

theorem half_eq_append (hi lo : Byte) : half hi lo = hi ++ lo := by
  apply BitVec.eq_of_toNat_eq
  have hh := hi.isLt
  have hl := lo.isLt
  rw [BitVec.toNat_append, ← Nat.shiftLeft_add_eq_or_of_lt hl, Nat.shiftLeft_eq, half, BitVec.toNat_ofNat, u16]
  omega

/-- Two bytes hold the whole of a check value (R164). -/
theorem be16_toNat_inj (x y : Half) : be16 x.toNat = be16 y.toNat ↔ x = y := by
  refine ⟨fun h => BitVec.eq_of_toNat_eq ?_, fun h => h ▸ rfl⟩
  obtain ⟨high, low⟩ : byteOf (x.toNat / 256) = byteOf (y.toNat / 256) ∧ byteOf x.toNat = byteOf y.toNat := by simpa [be16] using h
  have high := congrArg BitVec.toNat high
  have low := congrArg BitVec.toNat low
  simp only [byteOf, BitVec.toNat_ofNat] at high low
  have hx := x.isLt
  have hy := y.isLt
  omega

theorem toNat_addressAndKind (kind : Nat) (b : BayIdx) (h : kind < 16) : (addressAndKind kind b).toNat = kind * 16 + b.val := by
  rw [addressAndKind, byteOf, BitVec.toNat_ofNat]
  omega

/-! ### A frame received -/

theorem inTime_eq (rx : List RxByte) (h : ∀ r ∈ rx, r.gap ≤ 40) : inTime rx = rx.map RxByte.byte := by
  rw [inTime, List.takeWhile_eq_self_iff.mpr fun r hr => decide_eq_true (h r hr)]

/-- Bytes that came in time, the first the start byte, are judged as a frame (R164, R168). -/
theorem receive_inTime (polled : BayIdx) (rx : List RxByte) (addressKind : Byte) (rest : List Byte) (h : ∀ r ∈ rx.tail, r.gap ≤ 40)
    (e : rx.map RxByte.byte = frameStart :: addressKind :: rest) : receive polled rx = frameBody polled addressKind rest := by
  cases rx with
  | nil => cases e
  | cons first later =>
    obtain ⟨start, e⟩ := List.cons.inj e
    simp only [receive, inTime_eq later h, e, if_pos start]

/-- A frame of the length its bytes call for is told by its check bytes, then by its kind and address (R164, R168). -/
theorem frameBody_eq (polled : BayIdx) (addressKind first : Byte) (fields : List Byte) (check : Half)
    (h : payloadLength addressKind first = some (fields.length + 1)) :
    frameBody polled addressKind ((first :: fields) ++ be16 check.toNat) =
      if check = crc16 (addressKind :: first :: fields) then
        if addressKind.toNat / 16 = 2 ∧ addressKind.toNat % 16 = polled.val then requestOf (first :: fields) else .foreignFrame
      else .badFrame := by
  have payload : ((first :: fields) ++ be16 check.toNat).take (fields.length + 1) = first :: fields := List.take_left' rfl
  have checkBytes : (((first :: fields) ++ be16 check.toNat).drop (fields.length + 1)).take 2 = be16 check.toNat :=
    congrArg (List.take 2) (List.drop_left' rfl)
  have called : payloadLength addressKind (((first :: fields) ++ be16 check.toNat).headD 0#8) = some (fields.length + 1) := h
  simp only [frameBody, called, payload, checkBytes, be16_toNat_inj, List.length_cons, true_and]

/-- A REPORT as a visit takes it: bad with other check bytes, foreign from another bay, else its request (R168, R185). -/
theorem receive_report (b c : BayIdx) (first : Byte) (fields : List Byte) (check : Half) (rx : List RxByte)
    (h : reportPayloadLength first = some (fields.length + 1)) (hgap : ∀ r ∈ rx.tail, r.gap ≤ 40)
    (e : rx.map RxByte.byte = frameStart :: addressAndKind 2 c :: ((first :: fields) ++ be16 check.toNat)) :
    receive b rx =
      if check = crc16 (addressAndKind 2 c :: first :: fields) then if c = b then requestOf (first :: fields) else .foreignFrame
      else .badFrame := by
  have value := toNat_addressAndKind 2 c (by decide)
  have kind : (addressAndKind 2 c).toNat / 16 = 2 := by omega
  have address : (addressAndKind 2 c).toNat % 16 = c.val := by omega
  have called : payloadLength (addressAndKind 2 c) first = some (fields.length + 1) := by rw [payloadLength, kind]; exact h
  rw [receive_inTime b rx _ _ hgap e, frameBody_eq b _ first fields check called]
  simp only [kind, address, true_and, Fin.ext_iff]

/-- A POLL is no REPORT: whole, it is a foreign frame to every visit (R168, R185). -/
theorem receive_poll (b c : BayIdx) (first : Byte) (fields : List Byte) (rx : List RxByte) (h : fields.length = 8)
    (hgap : ∀ r ∈ rx.tail, r.gap ≤ 40) (e : rx.map RxByte.byte = frameOf 1 c (first :: fields)) : receive b rx = .foreignFrame := by
  have value := toNat_addressAndKind 1 c (by decide)
  have kind : (addressAndKind 1 c).toNat / 16 = 1 := by omega
  have called : payloadLength (addressAndKind 1 c) first = some (fields.length + 1) := by rw [payloadLength, kind, h]; rfl
  have e : rx.map RxByte.byte = frameStart :: addressAndKind 1 c ::
      ((first :: fields) ++ be16 (crc16 (addressAndKind 1 c :: first :: fields)).toNat) := e
  rw [receive_inTime b rx _ _ hgap e, frameBody_eq b _ first fields _ called, if_pos rfl, kind]
  exact if_neg fun report => absurd report.1 (by decide)

/-! ### Bits on the link -/

/-- The number that eight bits make, the first the least significant, has them as its bits. -/
theorem testBit_foldr_bits (bits : List Bool) (k : Nat) :
    (bits.foldr (fun (b : Bool) n => b.toNat + 2 * n) 0).testBit k = bits.getD k false := by
  induction bits generalizing k with
  | nil => simp
  | cons b bits ih =>
    rw [List.foldr_cons, show ∀ n, b.toNat + 2 * n = Nat.bit b n from fun n => by rw [Nat.bit_val, Nat.add_comm]]
    cases k with
    | zero => exact Nat.testBit_bit_zero ..
    | succ k => rw [Nat.testBit_bit_succ, ih]; rfl

theorem getLsbD_byteOfBits (bits : List Bool) (k : Nat) (h : k < 8) : (byteOfBits bits).getLsbD k = bits.getD k false := by
  rw [byteOfBits, BitVec.getLsbD_ofNat, testBit_foldr_bits, decide_eq_true h, Bool.true_and]

@[simp] theorem length_lineBits (b : Byte) : (lineBits b).length = 10 := rfl

/-- The line carries the bits of which a byte is made between a start bit and a stop bit (R164). -/
theorem lineBits_byteOfBits (bits : List Bool) (h : bits.length = 8) :
    lineBits (byteOfBits bits) = .start :: bits.map LineBit.data ++ [.stop] := by
  have data : (List.range 8).map (fun k => LineBit.data ((byteOfBits bits).getLsbD k)) = bits.map LineBit.data := by
    refine List.ext_getElem (by simp [h]) fun k hk hk' => ?_
    have inside : k < 8 := by simpa using hk
    rw [List.getElem_map, List.getElem_map, List.getElem_range, getLsbD_byteOfBits bits k inside, List.getD_eq_getElem]
  rw [lineBits, data]

theorem mapM_data?_eq (ds : List LineBit) (bits : List Bool) (h : ds.mapM LineBit.data? = some bits) : ds = bits.map LineBit.data := by
  induction ds generalizing bits with
  | nil => cases h; rfl
  | cons d ds ih =>
    rw [List.mapM_cons] at h
    obtain ⟨b, hb, h⟩ := Option.bind_eq_some_iff.mp h
    obtain ⟨rest, hrest, h⟩ := Option.bind_eq_some_iff.mp h
    cases h
    cases d with
    | data x => cases hb; rw [ih rest hrest]; rfl
    | _ => cases hb

/-- Only ten bit-times in the form of a byte carry one (R164). -/
theorem lineBits_of_byteOfLine (l : List LineBit) (b : Byte) (h : byteOfLine l = some b) : l = lineBits b := by
  unfold byteOfLine at h
  split at h
  · obtain ⟨bits, hbits, rfl⟩ := Option.map_eq_some_iff.mp h
    have data := mapM_data?_eq _ bits hbits
    have eight : bits.length = 8 := by simpa using (congrArg List.length data).symm
    rw [lineBits_byteOfBits bits eight, ← data]
    rfl
  · cases h

theorem byteOfLine_lineBits (b : Byte) : byteOfLine (lineBits b) = some b := by
  have carried : byteOfLine (lineBits b) = some (byteOfBits ((List.range 8).map b.getLsbD)) := rfl
  rw [carried]
  refine congrArg some (BitVec.eq_of_getLsbD_eq fun k hk => ?_)
  rw [getLsbD_byteOfBits _ k hk, List.getD_eq_getElem _ _ (by simpa using hk), List.getElem_map, List.getElem_range]

theorem length_lineOf (bytes : List Byte) : (lineOf bytes).length = 10 * bytes.length := by
  rw [lineOf, List.length_flatMap, List.map_congr_left fun b _ => length_lineBits b, List.map_const', List.sum_replicate, smul_eq_mul,
    Nat.mul_comm]

end Sys2Proof

namespace Sys2Proof.Machine

/-! ### The payload of a POLL -/

theorem Bay.byteOf_mode (y : Bay) : byteOf y.mode = if y.blockCause ≠ .none then 2 else if y.calState ≠ .idle then 1 else 0 := by
  rw [Bay.mode, apply_ite byteOf, apply_ite byteOf]
  rfl

/-- The payload by its fields (R185). -/
theorem State.pollPayload_eq (s : State) (b : BayIdx) (mode state : Byte) (handle : Nat) (answer : List Byte)
    (hmode : byteOf (s.bay b).mode = mode) (hhandle : ((s.bay b).record.map s.handle).getD noHandle = handle)
    (hstate : byteOf (s.pollStateCode b) = state)
    (hanswer : [byteOf (((s.bay b).answer.map fun a => a.code.code).getD 0)] ++ be16 (((s.bay b).answer.map Answer.handle).getD noHandle)
      = answer) :
    s.pollPayload b = [mode] ++ be16 handle ++ [state] ++ be16 (s.bay b).limit ++ answer := by
  rw [← hmode, ← hhandle, ← hstate, ← hanswer]
  rfl

theorem State.pollPayload_cons (s : State) (b : BayIdx) : ∃ fields, fields.length = 8 ∧ s.pollPayload b = byteOf (s.bay b).mode :: fields :=
  ⟨_, rfl, rfl⟩

theorem State.length_pollFrame (s : State) (b : BayIdx) : (s.pollFrame b).length = 13 := rfl

end Sys2Proof.Machine

open Sys2Proof Sys2Proof.Machine

/-- Settles O30: what is sent field by field, what is received by the length and check of a frame, and a byte on the line by its bits. -/
theorem framesOnTheLink : Obligations.FramesOnTheLink := by
  refine ⟨fun s b => ⟨?_, s.length_pollFrame b⟩,
    ⟨by decide +kernel, by decide +kernel, by decide +kernel, rfl, by decide +kernel⟩,
    fun b c payload request spelled rx check hgap e => ?_, fun s b c rx hgap e => ?_, fun b => ⟨rfl, byteOfLine_lineBits b⟩,
    lineBits_of_byteOfLine, fun bytes => ⟨rfl, length_lineOf bytes⟩⟩
  · refine congrArg (fun payload => frameOf 1 b payload) (s.pollPayload_eq b _ _ _ _ (s.bay b).byteOf_mode ?_ ?_ ?_)
    · cases (s.bay b).record <;> rfl
    · rw [State.pollStateCode]
      cases (s.bay b).record with
      | some i => rfl
      | none => cases (s.bay b).lastSpent <;> rfl
    · cases (s.bay b).answer <;> rfl
  · obtain ⟨first, fields, rfl, called, rfl⟩ :
        ∃ first fields, payload = first :: fields ∧ reportPayloadLength first = some (fields.length + 1) ∧ requestOf payload = request := by
      rcases spelled with ⟨rfl, rfl⟩ | ⟨cls, rh, rl, fh, fl, lease, mask, value, rfl, rfl⟩ | ⟨hh, hl, rh, rl, fh, fl, rfl, rfl⟩ |
        ⟨hh, hl, rfl, rfl⟩ | ⟨hh, hl, rfl, rfl⟩
      · exact ⟨_, _, rfl, rfl, rfl⟩
      all_goals
        simp only [← half_eq_append]
        exact ⟨_, _, rfl, rfl, rfl⟩
    rw [receive_report b c first fields check rx called hgap e]
    exact ⟨fun good => if_pos good, fun bad => if_neg bad⟩
  · obtain ⟨fields, eight, payload⟩ := s.pollPayload_cons c
    exact receive_poll b c _ fields rx eight hgap (by rw [e, State.pollFrame, payload])

end

section
/-!
A wrong argument count, for each form of arguments (O9).
-/
set_option Elab.async false

namespace Sys2Proof.Machine

/-! ### The forms of arguments -/

theorem State.noArgs_wrongCount (s : State) (args : List Byte) (f : State → State) (h : args.length ≠ 0) :
    s.noArgs args f = s.refuse .badArg := by
  unfold State.noArgs
  split
  · exact absurd rfl h
  · rfl

theorem State.handleArg_wrongCount (s : State) (args : List Byte) (f : Nat → State → State) (h : args.length ≠ 2) :
    s.handleArg args f = s.refuse .badArg := by
  unfold State.handleArg
  split
  · exact absurd rfl h
  · rfl

theorem State.bayArg_wrongCount (s : State) (args : List Byte) (f : BayIdx → State → State) (h : args.length ≠ 1) :
    s.bayArg args f = s.refuse .badArg := by
  unfold State.bayArg
  split
  · exact absurd rfl h
  · rfl

theorem State.channelArg_wrongCount (s : State) (args : List Byte) (f : Channel → State → State) (h : args.length ≠ 1) :
    s.channelArg args f = s.refuse .badArg := by
  unfold State.channelArg
  split
  · exact absurd rfl h
  · rfl

theorem State.flagMaskArg_wrongCount (s : State) (args : List Byte) (f : Nat → State → State) (h : args.length ≠ 3) :
    s.flagMaskArg args f = s.refuse .badArg := by
  unfold State.flagMaskArg
  split
  · exact absurd rfl h
  · rfl

/-! ### The commands that take their bytes apart themselves -/

theorem exec_threeBytes_wrongCount (s : State) (args : List Byte) (h : args.length ≠ 3) :
    ∀ c ∈ [Instr.configWrite args, .bayGate args, .retireGraceful args, .retireImmediate args, .editPut args],
      exec c s = .next (s.refuse .badArg) := by
  intro c hc
  simp only [List.mem_cons, List.not_mem_nil, or_false] at hc
  rcases hc with rfl | rfl | rfl | rfl | rfl
  all_goals
    simp only [exec, execConfigWrite, execBayGate, execRetireGraceful, execRetireImmediate, State.retire, execEditPut]
    split
    · exact absurd rfl h
    · rfl

theorem exec_ceilingWrite_wrongCount (s : State) (args : List Byte) (h : args.length ≠ 2) :
    exec (.ceilingWrite args) s = .next (s.refuse .badArg) := by
  simp only [exec, execCeilingWrite]
  split
  · exact absurd rfl h
  · rfl

theorem exec_alloc_wrongCount (s : State) (args : List Byte) (h : args.length ≠ 9) :
    exec (.alloc args) s = .next (s.refuse .badArg) := by
  simp only [exec, execAlloc]
  split
  · exact absurd rfl h
  · rfl

/-- The count of an EDIT.TAPER follows the step count in its first byte (R178, R184). -/
theorem taperArg?_wrongCount (args : List Byte) (h : args.length ≠ 1 + 3 * (args.headD 0).toNat) : taperArg? args = none := by
  cases args with
  | nil => rfl
  | cons n rest =>
    refine if_neg fun ⟨_, count⟩ => h ?_
    rw [List.length_cons, List.headD_cons, count, Nat.add_comm]

theorem exec_editTaper_none (s : State) (args : List Byte) (h : taperArg? args = none) :
    exec (.editTaper args) s = .next (s.refuse .badArg) := by
  simp only [exec, execEditTaper, h]

end Sys2Proof.Machine

open Sys2Proof Sys2Proof.Machine

/-- Settles O9: by the form of arguments of each command. -/
theorem wrongCountRefused : Obligations.WrongCountRefused := by
  refine fun args s => ⟨fun h c hc => ?_, fun h c hc => ?_, fun h c hc => ?_, fun h c hc => ?_, exec_alloc_wrongCount s args,
    fun h => exec_editTaper_none s args (taperArg?_wrongCount args h)⟩
  · simp only [List.mem_cons, List.not_mem_nil, or_false] at hc
    rcases hc with rfl | rfl | rfl | rfl | rfl | rfl | rfl | rfl | rfl | rfl | rfl | rfl | rfl | rfl | rfl | rfl | rfl
    all_goals exact congrArg Host.Outcome.next (s.noArgs_wrongCount args _ h)
  · simp only [List.mem_cons, List.not_mem_nil, or_false] at hc
    rcases hc with rfl | rfl | rfl | rfl | rfl | rfl
    iterate 4 exact congrArg Host.Outcome.next (s.bayArg_wrongCount args _ h)
    all_goals exact congrArg Host.Outcome.next (s.channelArg_wrongCount args _ h)
  · simp only [List.mem_cons, List.not_mem_nil, or_false] at hc
    rcases hc with rfl | rfl | rfl | rfl | rfl
    · exact exec_ceilingWrite_wrongCount s args h
    all_goals exact congrArg Host.Outcome.next (s.handleArg_wrongCount args _ h)
  · obtain bytes | mask : c ∈ [Instr.configWrite args, .bayGate args, .retireGraceful args, .retireImmediate args, .editPut args] ∨
        c ∈ [Instr.flagsClear args, .flagsEnable args] := List.mem_append.mp hc
    · exact exec_threeBytes_wrongCount s args h c bytes
    · simp only [List.mem_cons, List.not_mem_nil, or_false] at mask
      rcases mask with rfl | rfl
      all_goals exact congrArg Host.Outcome.next (s.flagMaskArg_wrongCount args _ h)

end

section
/-!
The edit window: opened (O19), written (O20), and closed by a drop or by a commit that applies nothing (O21).
-/
set_option Elab.async false

namespace Sys2Proof.Machine

/-! ### EDIT.OPEN -/

theorem State.openWindow_busy (s : State) (i : RecIdx) (t : Terms) (h : s.pool.edit ≠ none) : s.openWindow i t = s.refuse .busy := by
  obtain ⟨w, hw⟩ := Option.ne_none_iff_exists'.mp h
  simp only [State.openWindow, hw]

theorem State.openWindow_closed (s : State) (i : RecIdx) (t : Terms) (h : s.pool.edit = none) : s.openWindow i t =
    State.answer { s with pool := { s.pool with
      edit := some { handle := s.handle i, copy := t.copy, changed := ChangedFields.none, stale := false } } } .ok t.copy.image := by
  simp only [State.openWindow, h]

theorem exec_editOpen_retiring (s : State) (hi lo : Byte) (i : RecIdx) (h : s.handle i = u16 hi lo) (u : Terms) (a n : Nat) (c : EndCause)
    (e : s.life i = .retiring u a c n) : exec (.editOpen [hi, lo]) s = .next (s.refuse .state) :=
  congrArg Host.Outcome.next ((s.handleArg_of_handle hi lo _ i h).trans (by rw [e]))

/-- A WAITING and a GRANTED record are opened alike (R177). -/
theorem exec_editOpen (s : State) (hi lo : Byte) (i : RecIdx) (h : s.handle i = u16 hi lo) (u : Terms)
    (e : (∃ r, s.life i = .waiting u r) ∨ ∃ g, s.life i = .granted u g) : exec (.editOpen [hi, lo]) s = .next (s.openWindow i u) := by
  refine congrArg Host.Outcome.next ((s.handleArg_of_handle hi lo _ i h).trans ?_)
  obtain ⟨r, e⟩ | ⟨g, e⟩ := e
  · rw [e]
  · rw [e]

/-! ### A write into the copy -/

theorem State.putWindow_closed (s : State) (f : EditWindow → EditWindow) (h : s.pool.edit = none) : s.putWindow f = s.refuse .state := by
  simp only [State.putWindow, h]

theorem State.putWindow_open (s : State) (f : EditWindow → EditWindow) (w : EditWindow) (h : s.pool.edit = some w) :
    s.putWindow f = State.ok { s with pool := { s.pool with edit := some (f w) } } := by
  simp only [State.putWindow, h]

/-! ### EDIT.PUT -/

/-- An unknown field, or a value out of its field's range, whatever the copy holds (R178). -/
theorem EditCopy.put_eq_none_iff (c : EditCopy) (field hi lo : Byte) : c.put field hi lo = none ↔
    4 < field.toNat ∨ field.toNat = 0 ∧ 3 < u16 hi lo ∨ field.toNat = 1 ∧ (u16 hi lo = 0 ∨ 630 < u16 hi lo) ∨
      field.toNat = 2 ∧ 630 < u16 hi lo ∨ field.toNat = 3 ∧ 255 < u16 hi lo ∨ field.toNat = 4 ∧ (63 < hi.toNat ∨ 63 < lo.toNat) := by
  unfold EditCopy.put
  dsimp only
  split
  case h_6 no0 no1 no2 no3 no4 =>
    rw [imp_false] at no0 no1 no2 no3 no4
    exact iff_of_true rfl (by omega)
  all_goals
    rename_i h
    rw [h]
    split
    · exact iff_of_false (Option.some_ne_none _) (by omega)
    · exact iff_of_true rfl (by omega)

theorem EditCopy.put_cls (c : EditCopy) (hi lo : Byte) (h : u16 hi lo < 4) : c.put 0 hi lo = some { c with cls := ⟨u16 hi lo, h⟩ } :=
  dif_pos h

theorem EditCopy.put_requested (c : EditCopy) (hi lo : Byte) (low : 1 ≤ u16 hi lo) (high : u16 hi lo ≤ 630) :
    c.put 1 hi lo = some { c with requested := u16 hi lo } :=
  if_pos ⟨low, high⟩

theorem EditCopy.put_floor (c : EditCopy) (hi lo : Byte) (h : u16 hi lo ≤ 630) : c.put 2 hi lo = some { c with floor := u16 hi lo } :=
  if_pos h

theorem EditCopy.put_leaseLength (c : EditCopy) (hi lo : Byte) (h : u16 hi lo ≤ 255) :
    c.put 3 hi lo = some { c with leaseLength := u16 hi lo } :=
  if_pos h

theorem EditCopy.put_pattern (c : EditCopy) (hi lo : Byte) (hhi : hi.toNat ≤ 63) (hlo : lo.toNat ≤ 63) :
    c.put 4 hi lo = some { c with mask := hi.setWidth 6, value := lo.setWidth 6 } :=
  if_pos ⟨hhi, hlo⟩

/-- The field and its value are checked before the window is looked at (R175, R178). -/
theorem exec_editPut_badArg (s : State) (field hi lo : Byte) (h : Terms.absent.copy.put field hi lo = none) :
    exec (.editPut [field, hi, lo]) s = .next (s.refuse .badArg) := by
  simp only [exec, execEditPut, h, Option.isSome_none]

theorem exec_editPut (s : State) (field hi lo : Byte) (h : Terms.absent.copy.put field hi lo ≠ none) :
    exec (.editPut [field, hi, lo]) s = .next (s.putWindow fun w =>
      { w with copy := (w.copy.put field hi lo).getD w.copy, changed := w.changed.put field }) := by
  simp only [exec, execEditPut, Option.isSome_iff_ne_none.mpr h]

/-- An OPEN window's copy takes the field, and the field joins the changed-field set (R178). -/
theorem exec_editPut_open (s : State) (field hi lo : Byte) (w : EditWindow) (hw : s.pool.edit = some w) (c : EditCopy)
    (h : w.copy.put field hi lo = some c) : exec (.editPut [field, hi, lo]) s =
      .next (State.ok { s with pool := { s.pool with edit := some { w with copy := c, changed := w.changed.put field } } }) := by
  have inRange : Terms.absent.copy.put field hi lo ≠ none := by
    rw [Ne, EditCopy.put_eq_none_iff, ← w.copy.put_eq_none_iff, h]
    exact Option.some_ne_none c
  rw [exec_editPut s field hi lo inRange, s.putWindow_open _ w hw, h, Option.getD_some]

/-! ### EDIT.TAPER -/

/-- A step with its current and its duration in range (R178). -/
abbrev taperStepGood (x : Byte × Byte × Byte) : Prop :=
  u16 x.1 x.2.1 ≤ 630 ∧ 1 ≤ x.2.2.toNat

/-- The step that three bytes spell (R178, R184). -/
def taperStepOf (x : Byte × Byte × Byte) : TaperStep :=
  { current := u16 x.1 x.2.1, periods := x.2.2.toNat }

/-- The bytes of a list of steps (R184). -/
def taperBytes (steps : List (Byte × Byte × Byte)) : List Byte :=
  steps.flatMap fun x => [x.1, x.2.1, x.2.2]

theorem taperBytes_cons (x : Byte × Byte × Byte) (steps : List (Byte × Byte × Byte)) :
    taperBytes (x :: steps) = x.1 :: x.2.1 :: x.2.2 :: taperBytes steps := rfl

theorem length_taperBytes (steps : List (Byte × Byte × Byte)) : (taperBytes steps).length = 3 * steps.length := by
  induction steps with
  | nil => rfl
  | cons x steps ih =>
    rw [taperBytes_cons, List.length_cons, List.length_cons, List.length_cons, ih, List.length_cons]
    omega

theorem taperSteps?_good (steps : List (Byte × Byte × Byte)) (h : ∀ x ∈ steps, taperStepGood x) :
    taperSteps? (taperBytes steps) = some (steps.map taperStepOf) := by
  induction steps with
  | nil => rfl
  | cons x steps ih =>
    obtain ⟨good, rest⟩ := List.forall_mem_cons.mp h
    rw [taperBytes_cons, taperSteps?, if_pos good, ih rest]
    rfl

theorem taperSteps?_bad (steps : List (Byte × Byte × Byte)) (h : ¬ ∀ x ∈ steps, taperStepGood x) :
    taperSteps? (taperBytes steps) = none := by
  induction steps with
  | nil => exact absurd (fun _ hx => absurd hx List.not_mem_nil) h
  | cons x steps ih =>
    rw [taperBytes_cons, taperSteps?]
    split
    · rename_i good
      rw [ih fun rest => h (List.forall_mem_cons.mpr ⟨good, rest⟩)]
      rfl
    · rfl

/-- A step count that one byte holds says how many steps follow; above 8 it is out of range (R178). -/
theorem taperArg?_bytes (steps : List (Byte × Byte × Byte)) (h : steps.length < 256) :
    taperArg? (byteOf steps.length :: taperBytes steps) = if steps.length ≤ 8 then taperSteps? (taperBytes steps) else none := by
  have count : (byteOf steps.length).toNat = steps.length := by rw [byteOf, BitVec.toNat_ofNat, Nat.mod_eq_of_lt h]
  simp only [taperArg?, count, length_taperBytes, and_true]

theorem exec_editTaper (s : State) (args : List Byte) (l : List TaperStep) (h : taperArg? args = some l) :
    exec (.editTaper args) s = .next (s.putWindow fun w =>
      { w with copy := { w.copy with taper := l }, changed := { w.changed with taper := true } }) := by
  simp only [exec, execEditTaper, h]

/-! ### The window closes -/

theorem exec_editCommit_closed (s : State) (h : s.pool.edit = none) : exec (.editCommit []) s = .next (s.refuse .state) := by
  simp only [exec, execEditCommit, State.noArgs, h]

theorem exec_editDrop_closed (s : State) (h : s.pool.edit = none) : exec (.editDrop []) s = .next (s.refuse .state) := by
  simp only [exec, execEditDrop, State.noArgs, h]

theorem exec_editDrop (s : State) (w : EditWindow) (h : s.pool.edit = some w) : exec (.editDrop []) s = .next s.closeWindow.ok := by
  simp only [exec, execEditDrop, State.noArgs, h]

theorem exec_editCommit_stale (s : State) (w : EditWindow) (h : s.pool.edit = some w) (stale : w.stale = true) :
    exec (.editCommit []) s = .next (s.closeWindow.refuse .stale) := by
  simp only [exec, execEditCommit, State.noArgs, h, stale, if_true]

theorem exec_editCommit_unchanged (s : State) (w : EditWindow) (h : s.pool.edit = some w) (stale : w.stale = false)
    (unchanged : w.changed.any = false) : exec (.editCommit []) s = .next s.closeWindow.ok := by
  simp only [exec, execEditCommit, State.noArgs, h, stale, unchanged, Bool.false_eq_true, if_false, if_true]

/-- A commit that its record refuses closes the window and applies nothing (R24, R180). -/
theorem exec_editCommit_refused (s : State) (w : EditWindow) (i : RecIdx) (hw : s.pool.edit = some w) (hs : w.stale = false)
    (ha : w.changed.any = true) (hi : s.handle i = w.handle) (code : ReplyCode) (h : (s.life i).refuses w.changed w.copy = some code) :
    exec (.editCommit []) s = .next (s.closeWindow.refuse code) := by
  simp [exec, execEditCommit, State.noArgs, hw, hs, ha, State.commitWindow, s.resolve_handle _ i hi, h]

/-! ### What fails the checks of R24 -/

/-- A value bit outside the mask stands alone in what is left of the value (R1). -/
theorem pattern_outside {value mask : BitVec 6} (k : Fin 6) (hv : value.getLsbD k = true) (hm : mask.getLsbD k = false) :
    (value &&& ~~~mask) ≠ 0#6 := fun h => by
  have bit := congrArg (fun x => x.getLsbD k) h
  simp [BitVec.getLsbD_and, hv, hm, -BitVec.getLsbD_eq_getElem] at bit

theorem Terms.changeOk_eq_false (v : Terms)
    (h : v.requested < v.floor ∨ (∃ k : Fin 6, v.value.getLsbD k = true ∧ v.mask.getLsbD k = false) ∨
      v.leaseLength = 0 ∧ v.origin = .link) : v.changeOk = false := by
  refine Bool.eq_false_iff.mpr fun ok => ?_
  obtain ⟨⟨floor, pattern⟩, lease⟩ := v.changeOk_iff.mp ok
  obtain low | ⟨k, hv, hm⟩ | ⟨zero, link⟩ := h
  · exact absurd floor low.not_ge
  · exact pattern_outside k hv hm pattern
  · exact absurd (link.symm.trans (lease zero)) (by decide)

/-- Class and pattern are closed fields of a GRANTED record (R24). -/
theorem Life.refuses_closedField {t : Terms} {g : Grant} {ch : ChangedFields} {c : EditCopy} (h : ch.cls = true ∨ ch.pattern = true) :
    (Life.granted t g).refuses ch c = some .state :=
  if_pos (Bool.or_eq_true_iff.mpr h)

end Sys2Proof.Machine

open Sys2Proof Sys2Proof.Machine

/-- Settles O19: by the state of the record, then by the window. -/
theorem editOpenTaken : Obligations.EditOpenTaken := by
  refine fun s hi lo i h => ⟨fun u a c n e => exec_editOpen_retiring s hi lo i h u a n c e, fun u e => ⟨fun busy => ?_, fun closed => ?_⟩⟩
  · rw [exec_editOpen s hi lo i h u e, s.openWindow_busy i u busy]
  · refine ⟨u.copy.image, ?_, rfl⟩
    rw [exec_editOpen s hi lo i h u e, s.openWindow_closed i u closed]
    rfl

/-- Settles O20: each field by its range and the window; the steps by their bytes, one after another. -/
theorem editPutAndTaperTaken : Obligations.EditPutAndTaperTaken := by
  refine ⟨fun s field hi lo => ⟨fun bad => ?_, fun good closed => ?_, fun w hw => ⟨fun h => ?_, fun low high => ?_, fun h => ?_, fun h => ?_,
    fun hhi hlo => ?_⟩⟩, fun s steps => ?_⟩
  · exact exec_editPut_badArg s field hi lo ((EditCopy.put_eq_none_iff ..).mpr bad)
  · rw [exec_editPut s field hi lo fun none => good ((EditCopy.put_eq_none_iff ..).mp none), s.putWindow_closed _ closed]
  · exact exec_editPut_open s 0 hi lo w hw _ (w.copy.put_cls hi lo h)
  · exact exec_editPut_open s 1 hi lo w hw _ (w.copy.put_requested hi lo low high)
  · exact exec_editPut_open s 2 hi lo w hw _ (w.copy.put_floor hi lo h)
  · exact exec_editPut_open s 3 hi lo w hw _ (w.copy.put_leaseLength hi lo h)
  · exact exec_editPut_open s 4 hi lo w hw _ (w.copy.put_pattern hi lo hhi hlo)
  · intro args good count
    have spelled : taperArg? args = if steps.length ≤ 8 then taperSteps? (taperBytes steps) else none :=
      taperArg?_bytes steps (by omega)
    have taken (few : steps.length ≤ 8) (h : good) : taperArg? args = some (steps.map taperStepOf) := by
      rw [spelled, if_pos few, taperSteps?_good steps h]
    refine ⟨fun bad => exec_editTaper_none s args ?_, fun few h closed => ?_, fun few h w hw => ?_⟩
    · rw [spelled]
      split
      · exact taperSteps?_bad steps (bad.resolve_left (by omega))
      · rfl
    · rw [exec_editTaper s args _ (taken few h), s.putWindow_closed _ closed]
    · rw [exec_editTaper s args _ (taken few h), s.putWindow_open _ w hw]
      rfl

/-- Settles O21: by the window, then by what the record refuses. -/
theorem editWindowClosed : Obligations.EditWindowClosed := by
  refine ⟨fun s => ⟨fun closed => ⟨exec_editCommit_closed s closed, exec_editDrop_closed s closed⟩, fun w hw =>
    ⟨exec_editDrop s w hw, exec_editCommit_stale s w hw, fun stale unchanged =>
      exec_editCommit_unchanged s w hw stale (by rw [unchanged]; rfl)⟩⟩,
    fun s w i hw hs ha hi u => ?_⟩
  intro v bad
  have refused (code : ReplyCode) := exec_editCommit_refused s w i hw hs ha hi code
  have failed (h : bad) : v.changeOk = false := v.changeOk_eq_false h
  refine ⟨fun r e h => refused .badArg ?_, fun g e closedField => refused .state ?_, fun g e hc hp h => refused .badArg ?_⟩
  · rw [e, Life.refuses_waiting]
    exact if_neg (Bool.eq_false_iff.mp (failed h))
  · rw [e, Life.refuses_closedField closedField]
  · rw [e, Life.refuses_granted hc hp]
    refine if_neg fun passes => ?_
    obtain ⟨ok, above⟩ := Bool.and_eq_true_iff.mp passes
    obtain h | below := h
    · exact absurd ok (Bool.eq_false_iff.mp (failed h))
    · exact absurd (of_decide_eq_true above) below.not_ge

end

section
/-!
The flag commands (O25) and the attention line (O26).
-/
set_option Elab.async false

namespace Sys2Proof.Machine

/-! ### The attention line -/

theorem FlagState.isRaised_iff (x : FlagState) : x.isRaised = true ↔ x = .raisedUnseen ∨ x = .raisedSeen := by
  cases x <;> simp [FlagState.isRaised]

/-- The line is asserted exactly while a flag is raised and enabled (R183). -/
theorem State.attentionLine_iff (s : State) : s.attentionLine = true ↔
    ∃ f : Flag, (s.attention.flags.get f).isRaised = true ∧ s.attention.enables.getLsbD f.val = true := by
  simp [State.attentionLine]

/-- The line sees of a flag only whether it is raised and enabled (R183). -/
theorem State.attentionLine_congr {s t : State} (flags : ∀ f, (t.attention.flags.get f).isRaised = (s.attention.flags.get f).isRaised)
    (enables : t.attention.enables = s.attention.enables) : t.attentionLine = s.attentionLine := by
  simp only [State.attentionLine, flags, enables]

theorem State.attentionLine_lowered (s : State) (h : ∀ f, s.attention.flags.get f = .lowered) : s.attentionLine = false := by
  refine Bool.eq_false_iff.mpr fun line => ?_
  obtain ⟨f, raised, -⟩ := s.attentionLine_iff.mp line
  rw [h f] at raised
  exact absurd raised Bool.false_ne_true

theorem State.attentionLine_raise (s : State) (f : Flag) (h : s.attention.enables.getLsbD f.val = true) :
    (s.raise f).attentionLine = true := by
  refine (s.raise f).attentionLine_iff.mpr ⟨f, ?_, h⟩
  rw [State.flag_raise, if_pos rfl]
  rfl

/-! ### FLAGS.READ -/

theorem FlagState.see_eq (x : FlagState) : x.see = if x = .raisedUnseen then .raisedSeen else x := by
  cases x <;> rfl

/-- A flag seen is still raised (R183). -/
theorem FlagState.isRaised_see (x : FlagState) : x.see.isRaised = x.isRaised := by
  cases x <;> rfl

theorem Attention.flag_see (a : Attention) (f : Flag) : a.see.flags.get f = (a.flags.get f).see := by
  simp [Attention.see, Vector.get_eq_getElem]

theorem exec_flagsRead (s : State) :
    exec (.flagsRead []) s = .next (State.answer { s with attention := s.attention.see } .ok s.flagsImage) := rfl

theorem State.attentionLine_see (s : State) (body : List Byte) :
    (State.answer { s with attention := s.attention.see } .ok body).attentionLine = s.attentionLine :=
  State.attentionLine_congr (fun f => by rw [State.attention_answer, Attention.flag_see, FlagState.isRaised_see])
    (by rw [State.attention_answer, Attention.see])

/-! ### FLAGS.CLEAR -/

/-- The value of three mask bytes (R184). -/
def maskValue (b2 b1 b0 : Byte) : Nat :=
  b2.toNat * 65536 + b1.toNat * 256 + b0.toNat

/-- The bits of a mask above the flags are ignored (R184). -/
theorem testBit_mask (mask : Nat) (k : Nat) (h : k < 22) : (mask % 2 ^ 22).testBit k = mask.testBit k := by
  rw [Nat.testBit_mod_two_pow, decide_eq_true h, Bool.true_and]

theorem Attention.lowers_iff (a : Attention) (mask : Nat) (f : Flag) :
    a.lowers (mask % 2 ^ 22) f = true ↔ mask.testBit f.val = true ∧ a.flags.get f = .raisedSeen := by
  rw [Attention.lowers, testBit_mask mask f.val f.isLt, Bool.and_eq_true, beq_iff_eq]

theorem Attention.flag_clear (a : Attention) (mask : Nat) (f : Flag) :
    (a.clear (mask % 2 ^ 22)).flags.get f =
      if mask.testBit f.val = true ∧ a.flags.get f = .raisedSeen then .lowered else a.flags.get f := by
  have get : (a.clear (mask % 2 ^ 22)).flags.get f = if a.lowers (mask % 2 ^ 22) f then .lowered else a.flags.get f := by
    simp [Attention.clear, Vector.get_eq_getElem]
  rw [get]
  exact if_congr (a.lowers_iff mask f) rfl rfl

/-- The event set of a bay whose flag is lowered is emptied (R182). -/
theorem State.bay_clearFlags (s : State) (mask : Nat) (b : BayIdx) :
    (s.clearFlags (mask % 2 ^ 22)).bay b =
      if mask.testBit b.val = true ∧ s.attention.flags.get (bayFlag b) = .raisedSeen then { s.bay b with events := EventSet.empty }
      else s.bay b := by
  have get : (s.clearFlags (mask % 2 ^ 22)).bay b =
      if s.attention.lowers (mask % 2 ^ 22) (bayFlag b) then { s.bay b with events := EventSet.empty } else s.bay b := by
    simp [State.clearFlags, State.bay, Vector.get_eq_getElem]
  rw [get]
  exact if_congr (s.attention.lowers_iff mask (bayFlag b)) rfl rfl

/-- FLAGS.CLEAR writes the flags and the event sets, and nothing else (R182). -/
theorem State.clearFlags_frame (s : State) (mask : Nat) : (s.clearFlags mask).ok = { s with
    attention := { s.attention with flags := (s.clearFlags mask).ok.attention.flags }, bays := (s.clearFlags mask).ok.bays
    reply := some { code := .ok, body := [] } } := by
  simp only [State.ok, State.answer, State.clearFlags, Attention.clear]

theorem exec_flagsClear (s : State) (b2 b1 b0 : Byte) :
    exec (.flagsClear [b2, b1, b0]) s = .next (s.clearFlags (maskValue b2 b1 b0 % 2 ^ 22)).ok := rfl

/-! ### FLAGS.ENABLE -/

/-- Each enable takes the bit of its flag (R182). -/
theorem getLsbD_enables (mask : Nat) (f : Flag) : (BitVec.ofNat 22 (mask % 2 ^ 22)).getLsbD f.val = mask.testBit f.val := by
  rw [BitVec.getLsbD_ofNat, testBit_mask mask f.val f.isLt, decide_eq_true f.isLt, Bool.true_and]

theorem exec_flagsEnable (s : State) (b2 b1 b0 : Byte) : exec (.flagsEnable [b2, b1, b0]) s =
    .next (State.ok { s with attention := { s.attention with enables := BitVec.ofNat 22 (maskValue b2 b1 b0 % 2 ^ 22) } }) := rfl

end Sys2Proof.Machine

open Sys2Proof Sys2Proof.Machine

/-- Settles O25: each command by what it writes, flag by flag and bay by bay. -/
theorem flagCommandsTaken : Obligations.FlagCommandsTaken := by
  refine ⟨fun s => ⟨_, exec_flagsRead s, fun f => ?_, ?_, ?_⟩, fun s b2 b1 b0 =>
    ⟨⟨_, exec_flagsClear s b2 b1 b0, ?_, ?_, ?_⟩, _, exec_flagsEnable s b2 b1 b0, ?_, ?_⟩⟩
  · exact (s.attention.flag_see f).trans (FlagState.see_eq _)
  · rfl
  · exact s.attentionLine_see _
  · exact s.attention.flag_clear (maskValue b2 b1 b0)
  · intro b
    rw [State.bay_congr (State.bays_ok _)]
    exact s.bay_clearFlags (maskValue b2 b1 b0) b
  · exact s.clearFlags_frame _
  · exact getLsbD_enables (maskValue b2 b1 b0)
  · rfl

/-- Settles O26: the line by its definition, and each command by the flags and enables it leaves. -/
theorem attentionLineFollowsFlags : Obligations.AttentionLineFollowsFlags := by
  refine ⟨fun s => ?_, State.attentionLine_raise, fun s => ⟨_, exec_flagsRead s, s.attentionLine_see _⟩,
    fun s => ⟨_, exec_restart s, ?_⟩, fun s => ⟨_, exec_deviceReset s, ?_⟩⟩
  · simp only [State.attentionLine_iff, FlagState.isRaised_iff]
  · refine State.attentionLine_lowered _ fun f => ?_
    rw [State.attention_ok, State.restarted_eq, State.flags_vacated]
  · exact State.attentionLine_reset

end

section
/-!
Transactions of the Host Port: the command of a code, an aborted transaction, and the bits of the bytes (O27).
-/
set_option Elab.async false

namespace Sys2Proof

/-! ### The command of a code -/

/-- RETIRE is two rows, told apart by a third argument byte (R184). -/
theorem commandOf_retire (args : List Byte) : commandOf 14 args =
    if args.length = 3 ∧ args[2]? = some 1 then .retireImmediate args else .retireGraceful args := by
  show (match args with
    | [_, _, 1#8] => Instr.retireImmediate args
    | _ => Instr.retireGraceful args) = _
  split
  · rfl
  · rename_i other
    refine (if_neg fun ⟨three, mode⟩ => ?_).symm
    obtain ⟨x, y, z, rfl⟩ := List.length_eq_three.mp three
    obtain rfl : z = 1 := Option.some.inj mode
    exact other x y rfl

/-- Code n + 1 names row n of the table of section 11.2 (R184). -/
theorem commandOf_row (n : Fin 35) (args : List Byte) :
    some (commandOf (byteOf (n.val + 1)) args) = (Machine.portCommands[n.val]?).map fun c => c args := by
  fin_cases n
  pick_goal 14
  · exact congrArg some (commandOf_retire args)
  all_goals rfl

theorem commandOf_code (code : Byte) (args : List Byte) (c : List Byte → Instr) (h : 1 ≤ code.toNat)
    (row : Machine.portCommands[code.toNat - 1]? = some c) : commandOf code args = c args := by
  obtain ⟨within, -⟩ := List.getElem?_eq_some_iff.mp row
  have named := commandOf_row ⟨code.toNat - 1, within⟩ args
  rw [row, Option.map_some, Nat.sub_add_cancel h, byteOf, BitVec.ofNat_toNat, BitVec.setWidth_eq] at named
  exact Option.some.inj named

/-- Codes 0 and 36 to 255 name no command (R184). -/
theorem commandOf_noCommand (code : Byte) (args : List Byte) (h : code.toNat = 0 ∨ 36 ≤ code.toNat) :
    commandOf code args = .badCommand code args := by
  unfold commandOf
  split
  case h_36 => rfl
  all_goals omega

/-! ### Whole and broken transactions -/

/-- The count byte says how many bytes are the command's; what follows them is not looked at (R174). -/
theorem transact_whole (code : Byte) (args more : List Byte) (h : args.length ≤ 255) :
    transact (code :: byteOf args.length :: (args ++ more)) = commandOf code args := by
  have count : (byteOf args.length).toNat = args.length := by rw [byteOf, BitVec.toNat_ofNat, Nat.mod_eq_of_lt (by omega)]
  have enough : args.length ≤ (args ++ more).length := by rw [List.length_append]; omega
  simp only [transact, count, if_pos enough, List.take_left]

/-- Select rises before the last argument byte (R174). -/
theorem transact_broken (code count : Byte) (args : List Byte) (h : args.length < count.toNat) :
    transact (code :: count :: args) = .transactionAbort (code :: count :: args) :=
  if_neg h.not_ge

theorem transact_short (sent : List Byte) (h : sent.length < 2) : transact sent = .transactionAbort sent := by
  unfold transact
  split
  · simp only [List.length_cons] at h
    omega
  · rfl

/-! ### Bits on the Host Port -/

/-- The eight bits of a byte, the least significant first, make that byte. -/
theorem byteOfBits_bits (b : Byte) : byteOfBits ((List.range 8).map b.getLsbD) = b :=
  Option.some.inj (byteOfLine_lineBits b)

/-- Eight bits, the most significant first, are the next byte (R174). -/
theorem portBytes_byte (b : Byte) (bits : List Bool) :
    portBytes ((List.range 8).map (fun k => b.getLsbD (7 - k)) ++ bits) = b :: portBytes bits :=
  congrArg (· :: portBytes bits) (byteOfBits_bits b)

/-- Bits short of a byte are none (R174). -/
theorem portBytes_short (bits : List Bool) (h : bits.length < 8) : portBytes bits = [] := by
  unfold portBytes
  split
  · simp only [List.length_cons] at h
    omega
  · rfl

theorem portBytes_bits (bytes : List Byte) (rest : List Bool) (h : rest.length < 8) :
    portBytes (bytes.flatMap (fun b => (List.range 8).map fun k => b.getLsbD (7 - k)) ++ rest) = bytes := by
  induction bytes with
  | nil => exact portBytes_short rest h
  | cons b bytes ih => rw [List.flatMap_cons, List.append_assoc, portBytes_byte, ih]

end Sys2Proof

open Sys2Proof Sys2Proof.Machine

/-- Settles O27: a transaction by its count and its code, the code by its row of the table, and the bytes by their bits. -/
theorem transactionsSpellCommands : Obligations.TransactionsSpellCommands := by
  refine ⟨fun s code bytes => ⟨rfl, rfl⟩, rfl, fun code args more h => ⟨fun c first row => ?_, fun unnamed => ?_⟩, fun sent h => ?_, ?_,
    fun bytes rest h => congrArg transact (portBytes_bits bytes rest h)⟩
  · rw [transact_whole code args more h, commandOf_code code args c first row]
  · rw [transact_whole code args more h, commandOf_noCommand code args unnamed]
  · obtain short | ⟨code, count, args, rfl, missing⟩ := h
    · exact transact_short sent short
    · exact transact_broken code count args missing
  · decide

end

section
/-!
The zone and the effective ceiling (O58): the codes, the filtered code and the ceiling move only in device reset, CONFIG.WRITE, CEILING.WRITE and
the delivery of a TEMP result, and each of these recomputes what follows from them.
-/
set_option Elab.async false

namespace Sys2Proof.Machine

/-- The zone, the filtered code, the codes and the two ceilings stand. -/
structure Tempered (s t : State) : Prop where
  thermal : t.thermal = s.thermal
  params : t.params = s.params
  ceiling : t.alloc.ceiling = s.alloc.ceiling
  effCeiling : t.alloc.effCeiling = s.alloc.effCeiling

theorem Tempered.refl (s : State) : Tempered s s := ⟨rfl, rfl, rfl, rfl⟩

theorem Tempered.trans {s t u : State} (h : Tempered s t) (k : Tempered t u) : Tempered s u :=
  ⟨k.thermal.trans h.thermal, k.params.trans h.params, k.ceiling.trans h.ceiling, k.effCeiling.trans h.effCeiling⟩

/-- A change of other components. -/
theorem Tempered.aside {s t : State} (thermal : t.thermal = s.thermal := by rfl) (params : t.params = s.params := by rfl)
    (ceiling : t.alloc.ceiling = s.alloc.ceiling := by rfl) (effCeiling : t.alloc.effCeiling = s.alloc.effCeiling := by rfl) :
    Tempered s t :=
  ⟨thermal, params, ceiling, effCeiling⟩

theorem Stands.tempered {s t : State} (h : Stands s t) : Tempered s t := ⟨h.thermal, h.params, h.ceiling, h.effCeiling⟩

theorem Steady.tempered {s t : State} (h : Steady s t) : Tempered s t := h.stands.tempered

theorem Tempered.ok {s t : State} (h : Tempered s t) : Tempered s t.ok := ⟨h.thermal, h.params, h.ceiling, h.effCeiling⟩

theorem Tempered.thermalExact {s t : State} (h : Tempered s t) (e : s.ThermalExact) : t.ThermalExact := by
  rw [State.ThermalExact, h.thermal, h.params, h.ceiling, h.effCeiling]
  exact e

/-! ### Ceilings, zones and trips -/

/-- A trip moves neither ceiling (R142). -/
theorem tempered_enterTrip (s : State) : Tempered s s.enterTrip := by
  rw [s.entersTrip.frame]
  exact .aside

/-- The effective ceiling of the zone held is recomputed (R33, R133). -/
theorem thermalExact_setEffective (s : State) (h : s.thermal.zone = zoneOf s.params s.thermal.filtered) :
    (s.setEffective (effectiveCeiling s.alloc.ceiling s.thermal.zone)).ThermalExact := by
  have U := (untouched_setEffective s (effectiveCeiling s.alloc.ceiling s.thermal.zone)).toKept
  rw [State.ThermalExact, U.thermal, U.params, U.ceiling, (effCeiling_setEffective s _).1]
  exact ⟨h, rfl⟩

/-- The Allocator takes the zone held: in a trip, too, the effective ceiling follows (R33, R132, R141). -/
theorem thermalExact_takeZone (s : State) (h : s.thermal.zone = zoneOf s.params s.thermal.filtered) :
    (s.takeZone s.thermal.zone).ThermalExact := by
  unfold State.takeZone
  split
  · exact (tempered_enterTrip _).thermalExact ⟨h, rfl⟩
  · exact thermalExact_setEffective s h

/-- A derivation brings the zone in line with the codes and the filtered code, and the effective ceiling with the zone (R130). -/
theorem thermalExact_deriveZone (s : State) (h : s.alloc.effCeiling = s.alloc.ceiling * s.thermal.zone.factor / 100) :
    s.deriveZone.ThermalExact := by
  by_cases same : zoneOf s.params s.thermal.filtered = s.thermal.zone
  · rw [s.deriveZone_same same]
    exact ⟨same.symm, h⟩
  · rw [s.deriveZone_new same]
    exact thermalExact_takeZone (s.zoned (zoneOf s.params s.thermal.filtered)) rfl

/-! ### The commands that move a code, the filtered code or a ceiling -/

theorem thermalExact_configWrite (s : State) (n v : Nat) (h : s.ThermalExact) : (s.configWrite n v).ThermalExact := by
  unfold State.configWrite
  split
  · exact h
  · split
    · exact h
    · split
      · exact h
      · rw [s.writeParam_eq n v h.1]
        exact thermalExact_deriveZone { s with params := s.params.write n v } h.2

theorem thermalExact_writeCeiling (s : State) (v : Nat) (h : s.ThermalExact) : (s.writeCeiling v).ThermalExact :=
  thermalExact_setEffective { s with alloc := { s.alloc with ceiling := v } } h.1

theorem thermalExact_takeTemp (s : State) (r : Nat) (h : s.ThermalExact) : (s.takeTemp r).ThermalExact := by
  unfold State.takeTemp
  split
  · exact thermalExact_deriveZone { s with thermal := { s.thermal with filtered := some r } } h.2
  · exact h

theorem thermalExact_deliverScan (s : State) (c : Channel) (r : Nat) (h : s.ThermalExact) : (s.deliverScan c r).ThermalExact := by
  unfold State.deliverScan
  split
  · exact (stands_scanBay s _ r).tempered.thermalExact h
  · split
    · split
      · exact h
      · exact h
    · exact thermalExact_takeTemp s r h

/-! ### The commands that leave them standing -/

theorem tempered_deliverConfirm (s : State) (c : Channel) (r : Nat) : Tempered s (s.deliverConfirm c r) := by
  unfold State.deliverConfirm
  split
  · exact (stands_confirmBay s _ r).tempered
  · split
    · exact tempered_enterTrip s
    · exact .refl s

theorem thermalExact_deliver (s : State) (v : Conversion) (raw : Int) (h : s.ThermalExact) : (s.deliver v raw).ThermalExact := by
  unfold State.deliver
  split
  · exact thermalExact_deliverScan s _ _ h
  · exact (tempered_deliverConfirm s _ _).thermalExact h
  · exact h
  · split
    · exact (stands_calSample s _ _).tempered.thermalExact h
    · exact h

theorem tempered_enterWork (s : State) : Tempered s s.enterWork := by
  rw [State.enterWork_eq]
  exact .aside

theorem tempered_startUp (s : State) : Tempered s s.startUp := by
  unfold State.startUp
  dsimp only
  split
  · exact .trans .aside (tempered_enterTrip _)
  · exact .trans .aside (tempered_enterWork _)

theorem tempered_shutDown (s : State) : Tempered s s.shutDown :=
  (steady_finishBoundary s).tempered.trans (.trans .aside (quiet_setAllWaitReasons _ _).toSteady.tempered)

theorem tempered_vacated (u : State) : Tempered u u.vacated := by
  constructor <;> simp only [State.vacated, Allocator.restarted, State.modBays]

/-- RESTART keeps the ceilings and the Thermal Monitor (R159). -/
theorem tempered_restarted (s : State) : Tempered s s.restarted := by
  rw [State.restarted_eq]
  exact (steady_finishBoundary s).tempered.trans (tempered_vacated _)

theorem tempered_holdIfRunning (s : State) : Tempered s s.holdIfRunning := by
  rw [State.holdIfRunning_frame, State.alloc_holdIfRunning]
  exact .aside

theorem tempered_runIfReleased (s : State) : Tempered s s.runIfReleased := by
  rw [State.runIfReleased_eq]
  exact .aside

theorem tempered_judgeFallback (s : State) (good : Bool) : Tempered s (s.judgeFallback good) := by
  unfold State.judgeFallback
  split
  · exact .refl s
  · split
    · exact .aside
    · split
      · exact .aside
      · split
        · exact .aside
        · rw [State.returnComplete_eq]
          exact .aside

theorem tempered_judgeWindow (s : State) (good : Bool) : Tempered s (s.judgeWindow good) := by
  unfold State.judgeWindow
  split
  · split
    · exact .aside
    · exact .refl s
  · split
    · exact .refl s
    · exact .trans .aside (tempered_holdIfRunning s.losing)
  · exact tempered_judgeFallback s good

/-! ### Every command -/

/-- An outcome is a next state whose zone and effective ceiling are exact when those of `s` are. -/
def ThermalNext (s : State) (o : Host.Outcome State Fault Refusal) : Prop :=
  ∃ t, o = .next t ∧ (s.ThermalExact → t.ThermalExact)

theorem thermalNext_of {s t : State} (h : s.ThermalExact → t.ThermalExact) : ThermalNext s (.next t) := ⟨t, rfl, h⟩

theorem Tempered.next {s t : State} (h : Tempered s t) : ThermalNext s (.next t) := thermalNext_of h.thermalExact

/-- A command without arguments. -/
theorem tempered_noArgs (s : State) (args : List Byte) (f : State → State) (h : Tempered s (f s)) :
    ThermalNext s (.next (s.noArgs args f)) := by
  refine Tempered.next ?_
  unfold State.noArgs
  split
  · exact h
  · exact .aside

theorem execDeviceReset_thermal (s : State) : ThermalNext s (execDeviceReset s) := by
  obtain ⟨-, -, -, -, -, -, -, -, -, thermal, -⟩ := invariantsHoldAtReset
  exact ⟨_, rfl, fun _ => thermal⟩

theorem execStart_thermal (args : List Byte) (s : State) : ThermalNext s (execStart args s) := by
  refine tempered_noArgs s args _ ?_
  split
  · exact (tempered_startUp s).ok
  · exact .aside

theorem execStop_thermal (args : List Byte) (s : State) : ThermalNext s (execStop args s) := by
  refine tempered_noArgs s args _ ?_
  split
  · exact .aside
  · split
    · exact .aside
    · exact (tempered_shutDown s).ok

theorem execHoldSet_thermal (args : List Byte) (s : State) : ThermalNext s (execHoldSet args s) := by
  refine tempered_noArgs s args _ (Tempered.ok ?_)
  split
  · exact .refl s
  · exact .trans .aside (tempered_holdIfRunning _)

theorem execHoldClear_thermal (args : List Byte) (s : State) : ThermalNext s (execHoldClear args s) := by
  refine tempered_noArgs s args _ (Tempered.ok ?_)
  split
  · exact .trans .aside (tempered_runIfReleased _)
  · exact .refl s

theorem execResume_thermal (args : List Byte) (s : State) : ThermalNext s (execResume args s) := by
  refine tempered_noArgs s args _ ?_
  split
  · exact (tempered_enterWork s).ok
  · exact .aside

theorem execConfigWrite_thermal (args : List Byte) (s : State) : ThermalNext s (execConfigWrite args s) := by
  refine thermalNext_of fun h => ?_
  split
  · exact thermalExact_configWrite s _ _ h
  · exact h

theorem execCeilingWrite_thermal (args : List Byte) (s : State) : ThermalNext s (execCeilingWrite args s) := by
  refine thermalNext_of fun h => ?_
  split
  · split
    · exact thermalExact_writeCeiling s _ h
    · exact h
  · exact h

theorem execClockReturn_thermal (arrival : ReturnArrival) (s : State) : ThermalNext s (execClockReturn arrival s) := by
  refine tempered_noArgs s arrival.args _ ?_
  split
  · exact .aside
  · split
    · exact .aside
    · exact .aside

theorem execConversionEnd_thermal (reading : Reading) (s : State) : ThermalNext s (execConversionEnd reading s) := by
  refine thermalNext_of fun h => ?_
  have converting := (stands_converting s).tempered.thermalExact h
  split
  · exact thermalExact_deliver _ _ _ converting
  · exact thermalExact_deliver _ _ _ converting

/-- Every command and event keeps the zone and the effective ceiling exact; one that steers nothing leaves them standing. -/
theorem exec_thermal (c : Instr) (s : State) : ThermalNext s (exec c s) := by
  cases hc : steers c with
  | false =>
    obtain ⟨t, e, h⟩ := exec_stands c s hc
    exact ⟨t, e, h.tempered.thermalExact⟩
  | true =>
    cases c with
    | deviceReset => exact execDeviceReset_thermal s
    | start args => exact execStart_thermal args s
    | stop args => exact execStop_thermal args s
    | restart args => exact tempered_noArgs s args (fun s => s.restarted.ok) (tempered_restarted s).ok
    | holdSet args => exact execHoldSet_thermal args s
    | holdClear args => exact execHoldClear_thermal args s
    | resume args => exact execResume_thermal args s
    | configWrite args => exact execConfigWrite_thermal args s
    | ceilingWrite args => exact execCeilingWrite_thermal args s
    | clockReturn arrival => exact execClockReturn_thermal arrival s
    | signalPeriodStart => exact Tempered.next .aside
    | conversionEnd reading => exact execConversionEnd_thermal reading s
    | checkWindowEnd cycles => exact Tempered.next (.trans .aside (tempered_judgeWindow (s.latched cycles) _))
    | _ => cases hc

end Sys2Proof.Machine

open Sys2Proof Sys2Proof.Machine

/-- Settles O58: the commands that move a code, the filtered code, the zone or the ceiling recompute the effective ceiling from them. -/
theorem thermalStaysExact : Obligations.ThermalStaysExact := by
  intro s t h e
  unfold step at e
  split at e
  · cases e
    exact h
  · rename_i c rest _
    obtain ⟨u, hu, k⟩ := exec_thermal c { s with pending := rest }
    rw [hu] at e
    cases e
    exact k h

end

section
/-!
The load table and the reclaiming condition (O55): what each shared operation does to them. A change of one record's contribution, with its
load change and its evaluation (`tallies_become`), is the one operation that moves loads; a rise is made only within room.
-/
set_option Elab.async false

namespace Sys2Proof.Machine

variable {s t : State}

/-! ### Contributions and loads -/

/-- What a record with terms adds to the load of one position (R29). -/
theorem Life.loadAt_eq {l : Life} {u : Terms} (h : l.terms? = some u) (p : Position) :
    l.loadAt p = if u.onAt p then l.contribution else 0 := by
  rw [Life.loadAt, h]

/-- A record that is neither GRANTED nor RETIRING adds nothing (R29). -/
theorem Life.loadAt_unloaded {l : Life} (h : l.holdsLoad = false) (p : Position) : l.loadAt p = 0 := by
  cases l with
  | granted | retiring => cases h
  | _ => simp [Life.loadAt, Life.terms?, Life.contribution]

/-- The record's contribution is placed by the pattern of `u`. -/
def Life.placedBy (l : Life) (u : Terms) : Prop :=
  ∀ p, l.loadAt p = if u.onAt p then l.contribution else 0

theorem Life.placedBy_of_terms {l : Life} {u : Terms} (h : l.terms? = some u) : l.placedBy u := Life.loadAt_eq h

theorem Life.placedBy_of_waiting {l : Life} {v : Terms} {r : WaitReason} (h : l = .waiting v r) (u : Terms) : l.placedBy u := by
  subst h
  intro p
  simp [Life.loadAt, Life.terms?, Life.contribution]

/-- A sum over a list without repeats, one of whose terms changes. -/
theorem sum_map_change {l : List RecIdx} (hl : l.Nodup) {i : RecIdx} (hi : i ∈ l) {f g : RecIdx → Nat} (h : ∀ j, j ≠ i → f j = g j) :
    (l.map f).sum + g i = (l.map g).sum + f i := by
  have split : ∀ k : RecIdx → Nat, (l.map k).sum = k i + ((l.erase i).map k).sum := fun k => by
    rw [← List.sum_cons, ← List.map_cons]
    exact ((List.perm_cons_erase hi).map k).sum_eq
  have rest : (l.erase i).map f = (l.erase i).map g :=
    List.map_congr_left fun j hj => h j fun e => hl.not_mem_erase (e ▸ hj)
  rw [split f, split g, rest]
  omega

/-- One record changes, and the load of each position follows its contribution. -/
theorem State.LoadsExact.change {i : RecIdx} (h : s.LoadsExact) (others : ∀ j, j ≠ i → t.life j = s.life j)
    (loads : ∀ p, t.load p + (s.life i).loadAt p = s.load p + (t.life i).loadAt p) : t.LoadsExact := fun p => by
  have sum := sum_map_change (List.nodup_finRange 48) (List.mem_finRange i) (f := fun j => (t.life j).loadAt p)
    (g := fun j => (s.life j).loadAt p) fun j hj => by rw [others j hj]
  have before := h p
  have follows := loads p
  simp only [allRecords] at before ⊢
  omega

/-- A load holds at least the contribution of each record on in its position. -/
theorem State.LoadsExact.loadAt_le (h : s.LoadsExact) (i : RecIdx) (p : Position) : (s.life i).loadAt p ≤ s.load p := by
  rw [h p]
  exact List.single_le_sum (fun _ _ => Nat.zero_le _) _ (List.mem_map_of_mem (List.mem_finRange i))

theorem loadsExact_congr (lives : ∀ i, (t.life i).loadAt = (s.life i).loadAt) (loads : t.alloc.loads = s.alloc.loads)
    (h : s.LoadsExact) : t.LoadsExact := fun p => by
  have := h p
  simp only [State.load, lives, loads] at this ⊢
  exact this

theorem reclaimExact_congr (loads : t.alloc.loads = s.alloc.loads) (effCeiling : t.alloc.effCeiling = s.alloc.effCeiling)
    (reclaiming : t.alloc.reclaiming = s.alloc.reclaiming) (h : s.ReclaimExact) : t.ReclaimExact := by
  simp only [State.ReclaimExact, State.load, loads, effCeiling, reclaiming] at h ⊢
  exact h

/-- No record holds load, and every load is 0. -/
theorem loadsExact_empty (lives : ∀ i, (t.life i).holdsLoad = false) (loads : ∀ p, t.load p = 0) : t.LoadsExact := fun p => by
  rw [loads p, List.map_congr_left fun i _ => Life.loadAt_unloaded (lives i) p]
  simp

theorem reclaimExact_empty (loads : ∀ p, t.load p = 0) (reclaiming : t.alloc.reclaiming = false) : t.ReclaimExact := by
  refine iff_of_false (by simp [reclaiming]) ?_
  rintro ⟨p, hp⟩
  exact absurd (loads p ▸ hp) (Nat.not_lt_zero _)

/-! ### Operations that keep the tally -/

/-- The load table stays the sum of the contributions, and reclaiming stays exact (R29, R134). -/
structure Tallies (s t : State) : Prop where
  loads : s.LoadsExact → t.LoadsExact
  reclaim : s.LoadsExact → s.ReclaimExact → t.ReclaimExact

theorem Tallies.refl (s : State) : Tallies s s := ⟨id, fun _ => id⟩

theorem Tallies.trans {u : State} (h : Tallies s t) (k : Tallies t u) : Tallies s u :=
  ⟨k.loads ∘ h.loads, fun l r => k.reclaim (h.loads l) (h.reclaim l r)⟩

theorem Tallies.foldl {α : Type} {f : State → α → State} (hf : ∀ s a, Tallies s (f s a)) :
    ∀ (l : List α) (s : State), Tallies s (l.foldl f s)
  | [], s => .refl s
  | a :: l, s => (hf s a).trans (Tallies.foldl hf l (f s a))

/-- A change that moves no contribution, no load, not the effective ceiling and not the reclaiming condition. -/
theorem Tallies.aside (lives : ∀ i, (t.life i).loadAt = (s.life i).loadAt := by intro _; rfl)
    (loads : t.alloc.loads = s.alloc.loads := by rfl) (effCeiling : t.alloc.effCeiling = s.alloc.effCeiling := by rfl)
    (reclaiming : t.alloc.reclaiming = s.alloc.reclaiming := by rfl) : Tallies s t :=
  ⟨loadsExact_congr lives loads, fun _ => reclaimExact_congr loads effCeiling reclaiming⟩

theorem Tallies.ok (h : Tallies s t) : Tallies s t.ok := h.trans .aside

theorem tallies_trigger (s : State) : Tallies s s.trigger := by
  rw [State.trigger_eq]
  exact .aside

theorem tallies_modBay (s : State) (b : BayIdx) (f : Bay → Bay) : Tallies s (s.modBay b f) := .aside

theorem tallies_addEvent (s : State) (b : BayIdx) (e : BayEvent) : Tallies s (s.addEvent b e) := .aside

theorem tallies_blockBay (s : State) (b : BayIdx) (c : BlockCause) : Tallies s (s.blockBay b c) := .aside

theorem tallies_markStale (s : State) (i : RecIdx) : Tallies s (s.markStale i) :=
  .aside (fun j => by rw [State.life_markStale]) (by rw [State.alloc_markStale]) (by rw [State.alloc_markStale])
    (by rw [State.alloc_markStale])

/-- A record takes a new life that adds the same to every position. -/
theorem tallies_setLife (s : State) (i : RecIdx) (l : Life) (h : ∀ p, l.loadAt p = (s.life i).loadAt p) : Tallies s (s.setLife i l) :=
  .aside fun j => by
    rw [State.life_setLife]
    split
    · subst_vars
      exact funext h
    · rfl

theorem Life.loadAt_withReason (l : Life) (r : WaitReason) : (l.withReason r).loadAt = l.loadAt := by
  cases l with
  | waiting => exact funext fun p => (Life.loadAt_unloaded rfl p).trans (Life.loadAt_unloaded rfl p).symm
  | _ => rfl

theorem tallies_setWaitReason (s : State) (i : RecIdx) (r : WaitReason) : Tallies s (s.setWaitReason i r) :=
  tallies_setLife s i _ fun p => by rw [Life.loadAt_withReason]

theorem tallies_setAllWaitReasons (s : State) (r : WaitReason) : Tallies s (s.setAllWaitReasons r) :=
  .aside (fun i => by rw [State.life_setAllWaitReasons, Life.loadAt_withReason]) (by rw [State.alloc_setAllWaitReasons])
    (by rw [State.alloc_setAllWaitReasons]) (by rw [State.alloc_setAllWaitReasons])

/-! ### A record's new life -/

/-- The rise of a record's contribution leaves every load it is part of at or below the effective ceiling. -/
def State.WithinRoom (s : State) (u : Terms) (before after : Nat) : Prop :=
  ∀ p, u.onAt p = true → s.load p + after ≤ s.alloc.effCeiling + before

/-- The load of each on position follows the record's contribution (R29, R30). -/
theorem loadsExact_become (s : State) (i : RecIdx) (l : Life) (u : Terms) (hu : l.terms? = some u) (placed : (s.life i).placedBy u)
    (h : s.LoadsExact) : (s.become i l).LoadsExact := by
  refine h.change (i := i) (fun j hj => by rw [State.life_become, if_neg hj]) fun p => ?_
  have held := h.loadAt_le i p
  rw [State.load_become s i l u hu, State.life_become, if_pos rfl, Life.loadAt_eq hu]
  rw [placed p] at held ⊢
  split
  · rename_i on
    rw [if_pos on] at held
    omega
  · rfl

/-- A fall, and a rise within room, bring no load above the effective ceiling that was not there, and the evaluation follows the loads (R134). -/
theorem reclaimExact_become (s : State) (i : RecIdx) (l : Life) (u : Terms) (hu : l.terms? = some u)
    (bound : l.contribution ≤ (s.life i).contribution ∨ s.WithinRoom u (s.life i).contribution l.contribution)
    (h : s.ReclaimExact) : (s.become i l).ReclaimExact := by
  have load := State.load_become s i l u hu
  have eff : (s.become i l).alloc.effCeiling = s.alloc.effCeiling := by
    simp only [State.become, hu]
    exact (quiet_contribute _ _ _ _).effCeiling
  by_cases same : (s.life i).contribution = l.contribution
  · have stands : (s.become i l).alloc = s.alloc := by
      simp only [State.become, hu, same, State.contribute_same]
      rfl
    exact reclaimExact_congr (by rw [stands]) eff (by rw [stands]) h
  · have above : ∀ p, s.alloc.effCeiling < (s.become i l).load p → s.alloc.effCeiling < s.load p := fun p hp => by
      rw [load p] at hp
      split at hp
      · rename_i on
        rcases bound with fall | room
        · omega
        · have := room p on
          omega
      · exact hp
    have reclaiming : (s.become i l).alloc.reclaiming = (s.alloc.reclaiming && !(s.become i l).alloc.fits) := by
      have fits : (s.become i l).alloc.fits = (s.alloc.shift u (s.life i).contribution l.contribution).fits := by
        rw [Bool.eq_iff_iff, Allocator.fits_iff, Allocator.fits_iff, eff, Allocator.effCeiling_shift]
        refine forall_congr' fun p => ?_
        have := load p
        simp only [State.load] at this
        rw [this, Allocator.loads_shift]
      rw [fits]
      simp only [State.become, hu]
      exact State.reclaiming_contribute _ _ _ _ same
    have excess : (s.become i l).alloc.fits = false ↔ ∃ p, s.alloc.effCeiling < (s.become i l).load p := by
      rw [← Bool.not_eq_true, Allocator.fits_iff, eff]
      push Not
      rfl
    rw [State.ReclaimExact, reclaiming, eff, Bool.and_eq_true, Bool.not_eq_true', excess]
    exact ⟨And.right, fun ⟨p, hp⟩ => ⟨h.mpr ⟨p, above p hp⟩, p, hp⟩⟩

/-- A record takes a new life placed like the one it has; its contribution falls, or rises within room (R29, R30, R134). -/
theorem tallies_become (s : State) (i : RecIdx) (l : Life) (u : Terms) (hu : l.terms? = some u) (placed : (s.life i).placedBy u)
    (bound : l.contribution ≤ (s.life i).contribution ∨ s.WithinRoom u (s.life i).contribution l.contribution) :
    Tallies s (s.become i l) :=
  ⟨loadsExact_become s i l u hu placed, fun _ => reclaimExact_become s i l u hu bound⟩

/-! ### Record transitions -/

/-- The record created was FREE (R13). -/
theorem tallies_create (s : State) (i : RecIdx) (rest : List RecIdx) (u : Terms) (h : s.life i = .free) :
    Tallies s (s.create i rest u) := by
  have C := s.creates i rest u
  refine .aside (fun j => ?_) (by rw [C.frame]) (by rw [C.frame]) (by rw [C.frame])
  by_cases hj : j = i
  · rw [hj, C.life, h]
    exact funext fun p => (Life.loadAt_unloaded rfl p).trans (Life.loadAt_unloaded rfl p).symm
  · rw [C.otherLives j hj]

theorem tallies_leaveBay (s : State) (i : RecIdx) (b : BayIdx) : Tallies s (s.leaveBay i b) :=
  .aside (fun j => by rw [State.life_leaveBay]) (by rw [State.alloc_leaveBay]; rfl) (by rw [State.alloc_leaveBay]; rfl)
    (by rw [State.alloc_leaveBay]; rfl)

/-- Entry into SPENT gives the whole contribution back (R19). -/
theorem tallies_enterSpent (s : State) (i : RecIdx) (c : EndCause) (f : Bool) : Tallies s (s.enterSpent i c f) := by
  cases h : (s.life i).liveTerms? with
  | none => rw [State.enterSpent_dead s i c f h]; exact .refl s
  | some u =>
    rw [State.enterSpent_live s i c f u h]
    refine (tallies_become s i _ u rfl (Life.placedBy_of_terms (Life.terms?_of_liveTerms? h)) (.inl ?_)).trans (tallies_leaveBay _ _ _)
    exact Nat.zero_le _

/-- Entry into RETIRING leaves the active grant of the larger of both (R15). -/
theorem tallies_enterRetiring (s : State) (i : RecIdx) (c : EndCause) : Tallies s (s.enterRetiring i c) := by
  cases h : s.life i with
  | granted u g =>
    rw [State.enterRetiring_granted s i c u g h]
    refine .trans (.trans (tallies_become s i _ u rfl ?_ (.inl ?_)) .aside) (tallies_markStale _ i)
    · exact Life.placedBy_of_terms (by rw [h]; rfl)
    · rw [h]
      exact le_max_left _ _
  | _ => rw [State.enterRetiring_other s i c (by rw [h]; rfl)]; exact .refl s

theorem tallies_rampEnd (s : State) (i : RecIdx) : Tallies s (s.rampEnd i) := by
  unfold State.rampEnd
  split
  · exact tallies_enterSpent _ _ _ _
  · exact .refl s

theorem tallies_rampCut (s : State) (i : RecIdx) : Tallies s (s.rampCut i) := by
  unfold State.rampCut
  split
  · exact (tallies_enterSpent _ _ _ _).trans (tallies_blockBay _ _ _)
  · exact .refl s

/-- A staged grant that falls, or rises within room, and a window on the record overtaken (R30, R179). -/
theorem tallies_stage (s : State) (i : RecIdx) (v : Nat) (u : Terms) (g : Grant) (h : s.life i = .granted u g)
    (bound : v ≤ g.staged ∨ s.WithinRoom u (max g.active g.staged) (max g.active v)) : Tallies s ((s.stage i v).markStale i) := by
  rw [State.stage_granted s i v u g h]
  refine (tallies_become s i _ u rfl (Life.placedBy_of_terms (by rw [h]; rfl)) ?_).trans (tallies_markStale _ i)
  rw [h]
  exact bound.imp_left fun fall => max_le_max (le_refl g.active) fall

/-! ### Reclaiming, trip and the effective ceiling -/

theorem tallies_reclaimLower (s : State) (i : RecIdx) : Tallies s (s.reclaimLower i) := by
  unfold State.reclaimLower
  split
  · rename_i u g h
    split
    · rename_i hc
      exact tallies_stage s i _ u g h (.inl hc.1.le)
    · exact .refl s
  · exact .refl s

theorem tallies_reclaimRevoke (s : State) (i : RecIdx) : Tallies s (s.reclaimRevoke i) := by
  unfold State.reclaimRevoke
  split
  · split
    · exact tallies_enterRetiring _ _ _
    · exact .refl s
  · exact .refl s

theorem tallies_reclaimStep (s : State) : Tallies s s.reclaimStep :=
  (Tallies.foldl tallies_reclaimLower _ s).trans (Tallies.foldl tallies_reclaimRevoke _ _)

/-- A trip leaves no record with load, and the load table empty (R142). -/
theorem tallies_enterTrip (s : State) : Tallies s s.enterTrip := by
  have T := s.entersTrip
  have lives : ∀ i, (s.enterTrip.life i).holdsLoad = false := fun i => by
    rw [T.lives i]
    cases s.life i <;> rfl
  exact ⟨fun _ => loadsExact_empty lives T.loads, fun _ _ => reclaimExact_empty T.loads (by rw [T.frame])⟩

/-- The evaluation of a rise ends reclaiming exactly when every load fits under it (R134, R139). -/
theorem reclaimExact_rise (s : State) (e : Nat) (h : s.alloc.effCeiling < e) (exact : s.ReclaimExact) :
    (s.setEffective e).ReclaimExact := by
  have loads : (s.setEffective e).alloc.loads = s.alloc.loads := by
    rw [s.setEffective_rise e h, State.loads_trigger, State.loads_evaluate]
  have reclaiming : (s.setEffective e).alloc.reclaiming = (s.alloc.reclaiming && !({ s.alloc with effCeiling := e } : Allocator).fits) := by
    rw [s.setEffective_rise e h, State.reclaiming_trigger, State.reclaiming_evaluate]
  have excess : ({ s.alloc with effCeiling := e } : Allocator).fits = false ↔ ∃ p, e < s.load p := by
    rw [← Bool.not_eq_true, Allocator.fits_iff]
    push Not
    rfl
  rw [State.ReclaimExact, reclaiming, (effCeiling_setEffective s e).1, Bool.and_eq_true, Bool.not_eq_true', excess]
  simp only [State.load, loads]
  exact ⟨And.right, fun ⟨p, hp⟩ => ⟨exact.mpr ⟨p, h.trans hp⟩, p, hp⟩⟩

/-- A recomputed effective ceiling: a rise is evaluated, and a fall below some load begins reclaiming or goes on with it (R133, R139). -/
theorem tallies_setEffective (s : State) (e : Nat) : Tallies s (s.setEffective e) := by
  rcases lt_trichotomy e s.alloc.effCeiling with fall | same | rise
  · by_cases below : ∃ p, e < s.load p
    · rw [s.setEffective_below e fall below]
      refine ⟨fun l => (tallies_reclaimStep _).loads (loadsExact_congr (fun i => ?_) ?_ l),
        fun _ _ => (cuts_reclaimStep _).reclaimExact (reclaimExact_begun _ below)⟩
      · rw [State.life_begun]
        split
        · rfl
        · exact Life.loadAt_withReason _ _
      · rw [State.alloc_begun]
    · have fits : ∀ p, s.load p ≤ e := fun p => Nat.le_of_not_lt fun hp => below ⟨p, hp⟩
      rw [s.setEffective_fall e fall fits]
      refine ⟨loadsExact_congr (fun _ => rfl) rfl, fun _ r => iff_of_false (fun hr => ?_) below⟩
      obtain ⟨p, hp⟩ := r.mp hr
      exact absurd (hp.trans_le (fits p)) fall.asymm
  · rw [same, s.setEffective_equal]
    exact .refl s
  · refine ⟨loadsExact_congr (fun i => ?_) ?_, fun _ => reclaimExact_rise s e rise⟩
    · rw [s.setEffective_rise e rise, State.life_congr (State.pool_trigger _), State.life_congr (State.pool_evaluate _)]
      rfl
    · rw [s.setEffective_rise e rise, State.loads_trigger, State.loads_evaluate]

/-- A trip taken under a CRITICAL zone brings the effective ceiling with it (R33, R141). -/
theorem tallies_takeZone (s : State) (z : Zone) : Tallies s (s.takeZone z) := by
  unfold State.takeZone
  split
  · have T := State.entersTrip { s with alloc := { s.alloc with effCeiling := effectiveCeiling s.alloc.ceiling z } }
    exact ⟨fun l => (tallies_enterTrip _).loads (loadsExact_congr (fun _ => rfl) rfl l),
      fun _ _ => reclaimExact_empty T.loads (by rw [T.frame])⟩
  · exact tallies_setEffective _ _

theorem tallies_deriveZone (s : State) : Tallies s s.deriveZone := by
  unfold State.deriveZone
  dsimp only
  split
  · exact .refl s
  · exact .trans .aside (tallies_takeZone _ _)

/-! ### Operating state -/

theorem tallies_enterWork (s : State) : Tallies s s.enterWork := by
  rw [State.enterWork_eq]
  exact .aside

theorem tallies_holdIfRunning (s : State) : Tallies s s.holdIfRunning := by
  unfold State.holdIfRunning
  split
  · exact .trans .aside (tallies_setAllWaitReasons _ _)
  · exact .refl s

theorem tallies_runIfReleased (s : State) : Tallies s s.runIfReleased := by
  rw [State.runIfReleased_eq]
  exact .aside

theorem tallies_setHoldPort (s : State) : Tallies s s.setHoldPort := .trans .aside (tallies_holdIfRunning _)
theorem tallies_clearHoldPort (s : State) : Tallies s s.clearHoldPort := .trans .aside (tallies_runIfReleased _)

/-! ### Changes of a live record -/

/-- A change that R24 lets pass leaves a GRANTED record its pattern, and its staged grant can only fall (R24, R25). -/
theorem tallies_applyChange (s : State) (i : RecIdx) (ch : ChangedFields) (c : EditCopy) (h : (s.life i).refuses ch c = none) :
    Tallies s (s.applyChange i ch c) := by
  unfold State.applyChange
  split
  · rename_i u r e
    have waits : ∀ (v : Terms) (q : WaitReason), Tallies s (s.setLife i (.waiting v q)) := fun v q =>
      tallies_setLife s i _ fun p => by rw [e, Life.loadAt_unloaded rfl, Life.loadAt_unloaded rfl]
    dsimp only
    split
    · exact (waits _ _).trans (.trans .aside (tallies_trigger _))
    · exact waits _ _
  · rename_i u g e
    have pattern : ch.pattern = false := by
      rw [e, Life.refuses] at h
      cases hp : ch.pattern <;> simp_all
    have on : ∀ p, (u.changed ch c).onAt p = u.onAt p := fun p => by simp [Terms.onAt, Terms.changed, pattern]
    refine tallies_become s i _ _ rfl (fun p => ?_) (.inl ?_)
    · rw [on p]
      exact Life.loadAt_eq (by rw [e]; rfl) p
    · rw [e]
      refine max_le_max (le_refl g.active) ?_
      simp only [Grant.changed]
      split
      · exact min_le_left _ _
      · exact le_refl _
  · exact .refl s

/-- A lease count moves no grant (R63). -/
theorem tallies_reloadLease (s : State) (i : RecIdx) : Tallies s (s.reloadLease i) := by
  unfold State.reloadLease
  split
  · rename_i e
    split
    · exact .refl s
    · exact tallies_setLife s i _ fun p => by rw [e]; rfl
  · exact .refl s

theorem tallies_endCalibration (s : State) (b : BayIdx) (r : CalResult) : Tallies s (s.endCalibration b r) :=
  .trans .aside (tallies_trigger _)

/-! ### The admission pass -/

/-- An admission within room (R43): the headroom of every on position takes the grant. -/
theorem tallies_admission (s : State) (i : RecIdx) (u : Terms) (r : WaitReason) (n : Nat) (h : s.life i = .waiting u r)
    (room : n ≤ s.room u) (pos : 1 ≤ s.room u) : Tallies s (s.admission i u n) := by
  have within : s.WithinRoom u 0 n := fun p on => by
    have := roomUnder_le s.alloc.effCeiling u s.load p on
    unfold State.room at room pos
    omega
  have become := tallies_become s i (.granted u (s.admittedGrant u n)) u rfl (Life.placedBy_of_waiting h u)
    (.inr (by rw [h]; exact (Nat.zero_max n).symm ▸ within))
  exact ((become.trans .aside).trans (tallies_addEvent _ _ _)).trans (tallies_markStale _ i)

/-- Candidates at or above their floors are lowered to them one after another (R46). -/
theorem tallies_lowerToFloor : ∀ (l : List RecIdx) (s : State), (∀ j ∈ l, ∀ u g, s.life j = .granted u g → u.floor ≤ g.staged) →
    Tallies s (l.foldl State.lowerToFloor s)
  | [], s, _ => .refl s
  | j :: rest, s, h => by
    rw [List.foldl_cons]
    have atFloor := h j List.mem_cons_self
    cases hl : s.life j with
    | granted u g =>
      have e : s.lowerToFloor j = (s.stage j u.floor).markStale j := by simp only [State.lowerToFloor, hl]
      have S := State.stages s j u g u.floor hl
      rw [e]
      refine (tallies_stage s j _ u g hl (.inl (atFloor u g hl))).trans (tallies_lowerToFloor rest _ fun k hk v k' hv => ?_)
      by_cases hkj : k = j
      · rw [hkj, S.life] at hv
        cases hv
        exact le_refl _
      · rw [S.otherLives k hkj] at hv
        exact h k (List.mem_cons_of_mem j hk) v k' hv
    | _ =>
      have e : s.lowerToFloor j = s := by simp only [State.lowerToFloor, hl]
      rw [e]
      exact tallies_lowerToFloor rest s fun k hk => h k (List.mem_cons_of_mem j hk)

/-- A squeeze lowers candidates only, which stand above their floors (R45, R46). -/
theorem tallies_squeeze (s : State) (u : Terms) : Tallies s (s.squeeze u) := by
  unfold State.squeeze
  split
  · exact .refl s
  · split
    · exact .refl s
    · split
      · rename_i low hlow
        have spec := s.squeezeSet_spec u (s.candidates u) []
        rw [hlow] at spec
        obtain ⟨taken, -, isPrefix, rfl, -⟩ := spec
        refine tallies_lowerToFloor _ s fun j hj v g hv => ?_
        have candidate := (List.mem_filter.mp (isPrefix.subset hj)).2
        simp only [hv, Bool.and_eq_true, decide_eq_true_eq] at candidate
        exact candidate.1.2.le
      · exact .refl s

theorem tallies_walk : ∀ (l : List RecIdx) (s : State), Tallies s (State.walk l s).1
  | [], s => .refl s
  | i :: rest, s => by
    unfold State.walk
    split
    · rename_i u r h
      split
      · exact (tallies_setWaitReason _ _ _).trans (tallies_walk rest _)
      · split
        · rename_i fits
          exact (tallies_admission s i u r _ h (min_le_right _ _) ((le_max_right _ _).trans fits)).trans (tallies_walk rest _)
        · exact (Tallies.foldl (fun s j => tallies_setWaitReason s j .budget) _ s).trans (tallies_squeeze _ _)
    · exact tallies_walk rest s

/-- A raise within room (R49, R50). -/
theorem tallies_restoreOne (s : State) (i : RecIdx) : Tallies s (s.restoreOne i) := by
  unfold State.restoreOne
  split
  · rename_i u g h
    dsimp only
    split
    · exact .refl s
    · rename_i pos
      refine tallies_stage s i _ u g h (.inr fun p on => ?_)
      have := roomUnder_le s.alloc.effCeiling u s.load p on
      unfold State.room at pos ⊢
      omega
  · exact .refl s

theorem tallies_pass (s : State) : Tallies s s.pass := by
  have h : Tallies s { s with alloc := { s.alloc with passDue := false } } := .aside
  unfold State.pass
  dsimp only
  split
  · exact h.trans (tallies_walk _ _)
  · exact (h.trans (tallies_walk _ _)).trans (Tallies.foldl tallies_restoreOne _ _)

end Sys2Proof.Machine
end

section
/-!
The parts of a boundary, the converter's results and every command and event keep the tally, and so every step does (O55).
-/
set_option Elab.async false

namespace Sys2Proof.Machine

/-! ### The parts of a boundary -/

/-- Activation gives a GRANTED record's contribution the value of its staged grant, and the counts move no grant (R58, R59, R70). -/
theorem tallies_recordBoundary (s : State) (i : RecIdx) : Tallies s (s.recordBoundary i) := by
  unfold State.recordBoundary
  split
  · rename_i u g h
    have activated : Tallies s (s.become i (.granted u (g.boundary u).1)) := by
      refine tallies_become s i _ u rfl (Life.placedBy_of_terms (by rw [h]; rfl)) (.inl ?_)
      simp only [h, Life.contribution, Grant.active_boundary, Grant.staged_boundary, max_self]
      exact le_max_right _ _
    dsimp only
    split
    · exact activated.trans (tallies_enterRetiring _ _ _)
    · exact activated
  · rename_i h
    split
    · exact tallies_rampCut _ _
    · exact tallies_setLife s i _ fun p => by rw [h]; rfl
  · exact .refl s

theorem tallies_bayBoundary (s : State) (b : BayIdx) : Tallies s (s.bayBoundary b) := by
  have graces := tallies_modBay s b Bay.endGraces
  unfold State.bayBoundary
  dsimp only
  refine Tallies.trans ?_ (tallies_modBay _ b _)
  split
  · exact graces.trans (tallies_recordBoundary _ _)
  · exact graces

/-- Strikes and their window are no part of a contribution (R106). -/
theorem tallies_countStrikeWindow (s : State) (b : BayIdx) : Tallies s (s.countStrikeWindow b) := by
  unfold State.countStrikeWindow
  split
  · exact .refl s
  · split
    · rename_i h
      split
      · exact tallies_setLife s _ _ fun p => by rw [h]; rfl
      · exact tallies_setLife s _ _ fun p => by rw [h]; rfl
    · exact .refl s

/-- A charge claim leaves pattern and grants (R114). -/
theorem tallies_chargeRecord (s : State) (i : RecIdx) (m : Nat) : Tallies s (s.chargeRecord i m) := by
  unfold State.chargeRecord
  split
  · rename_i h
    exact tallies_setLife s i _ fun p => by rw [h]; rfl
  · rename_i h
    exact tallies_setLife s i _ fun p => by rw [h]; rfl
  · exact .refl s

theorem tallies_foldCharge (s : State) (b : BayIdx) : Tallies s (s.foldCharge b) := by
  unfold State.foldCharge
  dsimp only
  refine Tallies.trans ?_ (tallies_modBay _ b _)
  split
  · split
    · exact .refl s
    · split
      · exact tallies_chargeRecord _ _ _
      · exact .refl s
  · exact .refl s

theorem tallies_countCloseWindow (s : State) : Tallies s s.countCloseWindow := by
  unfold State.countCloseWindow
  split
  · exact .trans .aside (tallies_trigger _)
  · exact .aside

theorem tallies_countSettle (s : State) (b : BayIdx) : Tallies s (s.countSettle b) := by
  unfold State.countSettle
  split
  · split
    · exact .aside
    · exact .aside
  · exact .refl s

theorem tallies_takePart (s : State) (p : BoundaryPart) : Tallies s (s.takePart p) := by
  cases p with
  | bay b => exact tallies_bayBoundary s b
  | strikes b => exact tallies_countStrikeWindow s b
  | charge b => exact tallies_foldCharge s b
  | closeWindow => exact tallies_countCloseWindow s
  | settle b => exact tallies_countSettle s b

theorem tallies_takeParts (s : State) (l : List BoundaryPart) : Tallies s (s.takeParts l) := Tallies.foldl tallies_takePart l s

theorem tallies_finishBoundary (s : State) : Tallies s s.finishBoundary := .trans .aside (tallies_takeParts _ _)

theorem tallies_boundary (s : State) (later : List BoundaryPart) : Tallies s (s.boundary later) := .trans .aside (tallies_takeParts _ _)

theorem tallies_takeOutstanding (s : State) (p : BoundaryPart) : Tallies s (s.takeOutstanding p) := .trans .aside (tallies_takePart _ _)

theorem tallies_recordEvent (s : State) (i : RecIdx) (due : Life → Bool) : Tallies s (s.recordEvent i due) := by
  unfold State.recordEvent
  split
  · split
    · exact tallies_takeOutstanding _ _
    · exact .refl s
  · exact .refl s

/-! ### Conversions -/

theorem tallies_countCharge (s : State) (b : BayIdx) (r : Nat) : Tallies s (s.countCharge b r) := by
  unfold State.countCharge
  split
  · exact .refl s
  · split
    · exact .refl s
    · exact .aside

theorem tallies_judgeScan (s : State) (b : BayIdx) (r : Nat) : Tallies s (s.judgeScan b r) := by
  unfold State.judgeScan
  split
  · split
    · exact .aside
    · exact .refl s
  · split
    · exact tallies_rampEnd _ _
    · exact .refl s
  · exact .refl s
  · split
    · exact .aside
    · exact .refl s

theorem tallies_strike (s : State) (i : RecIdx) : Tallies s (s.strike i) := by
  unfold State.strike
  split
  · rename_i u g h
    have struck : Tallies s (s.setLife i (.granted u { g with strikes := g.strikes + 1 })) :=
      tallies_setLife s i _ fun p => by rw [h]; rfl
    dsimp only
    split
    · exact struck.trans (tallies_enterRetiring _ _ _)
    · exact struck
  · exact .refl s

theorem tallies_judgeConfirm (s : State) (b : BayIdx) (r : Nat) : Tallies s (s.judgeConfirm b r) := by
  unfold State.judgeConfirm
  split
  · split
    · exact tallies_strike _ _
    · exact .refl s
  · split
    · exact tallies_rampEnd _ _
    · exact .refl s
  · exact .refl s
  · split
    · exact tallies_blockBay _ _ _
    · exact .refl s

theorem tallies_quietRule (s : State) (b : BayIdx) (r : Nat) : Tallies s (s.quietRule b r) := by
  unfold State.quietRule
  split
  · exact tallies_endCalibration _ _ _
  · exact .refl s

theorem tallies_completeCalibration (s : State) (b : BayIdx) (sum : Int) : Tallies s (s.completeCalibration b sum) := by
  unfold State.completeCalibration
  split
  · exact .trans .aside (tallies_endCalibration _ _ _)
  · exact tallies_endCalibration _ _ _

theorem tallies_calSample (s : State) (b : BayIdx) (raw : Int) : Tallies s (s.calSample b raw) := by
  unfold State.calSample
  split
  · split
    · exact tallies_endCalibration _ _ _
    · split
      · exact tallies_completeCalibration _ _ _
      · exact .aside
  · exact .refl s

theorem tallies_takeTemp (s : State) (r : Nat) : Tallies s (s.takeTemp r) := by
  unfold State.takeTemp
  split
  · exact .trans .aside (tallies_deriveZone _)
  · exact .refl s

theorem tallies_deliverScan (s : State) (c : Channel) (r : Nat) : Tallies s (s.deliverScan c r) := by
  unfold State.deliverScan
  split
  · rename_i b _
    have latest : Tallies s (s.latest b r) := .aside
    exact ((latest.trans (tallies_countCharge _ _ _)).trans (tallies_judgeScan _ _ _)).trans (tallies_quietRule _ _ _)
  · split
    · split
      · exact .aside
      · exact .refl s
    · exact tallies_takeTemp _ _

theorem tallies_deliverConfirm (s : State) (c : Channel) (r : Nat) : Tallies s (s.deliverConfirm c r) := by
  unfold State.deliverConfirm
  split
  · exact .trans .aside (tallies_judgeConfirm _ _ _)
  · split
    · exact tallies_enterTrip _
    · exact .refl s

theorem tallies_deliver (s : State) (v : Conversion) (raw : Int) : Tallies s (s.deliver v raw) := by
  unfold State.deliver
  split
  · exact tallies_deliverScan _ _ _
  · exact tallies_deliverConfirm _ _ _
  · exact .aside
  · split
    · exact tallies_calSample _ _ _
    · exact .refl s

theorem tallies_converting (s : State) : Tallies s s.converting.1 := by
  unfold State.converting
  split
  · exact .refl s
  · exact .aside

/-! ### Check windows -/

theorem tallies_judgeFallback (s : State) (good : Bool) : Tallies s (s.judgeFallback good) := by
  unfold State.judgeFallback
  split
  · exact .refl s
  · split
    · exact .aside
    · split
      · exact .aside
      · split
        · exact .aside
        · rw [State.returnComplete_eq]
          exact .aside

theorem tallies_judgeWindow (s : State) (good : Bool) : Tallies s (s.judgeWindow good) := by
  unfold State.judgeWindow
  split
  · split
    · exact .aside
    · exact .refl s
  · split
    · exact .refl s
    · exact .trans .aside (tallies_holdIfRunning s.losing)
  · exact tallies_judgeFallback s good

/-! ### Arguments -/

theorem tallies_noArgs (s : State) (args : List Byte) (f : State → State) (h : Tallies s (f s)) : Tallies s (s.noArgs args f) := by
  unfold State.noArgs
  split
  · exact h
  · exact .aside

theorem tallies_withHandle (s : State) (v : Nat) (f : RecIdx → State → State) (h : ∀ i, Tallies s (f i s)) :
    Tallies s (s.withHandle v f) := by
  unfold State.withHandle
  split
  · exact h _
  · exact .aside

/-- A command that names a record by its handle. -/
theorem tallies_onRecord (s : State) (args : List Byte) (f : RecIdx → State → State) (h : ∀ i, Tallies s (f i s)) :
    Tallies s (s.handleArg args fun v s => s.withHandle v f) := by
  unfold State.handleArg
  split
  · exact tallies_withHandle s _ f h
  · exact .aside

theorem tallies_bayArg (s : State) (args : List Byte) (f : BayIdx → State → State) (h : ∀ b, Tallies s (f b s)) :
    Tallies s (s.bayArg args f) := by
  unfold State.bayArg
  split
  · split
    · exact h _
    · exact .aside
  · exact .aside

theorem tallies_channelArg (s : State) (args : List Byte) (f : Channel → State → State) (h : ∀ c, Tallies s (f c s)) :
    Tallies s (s.channelArg args f) := by
  unfold State.channelArg
  split
  · split
    · exact h _
    · exact .aside
  · exact .aside

theorem tallies_flagMaskArg (s : State) (args : List Byte) (f : Nat → State → State) (h : ∀ m, Tallies s (f m s)) :
    Tallies s (s.flagMaskArg args f) := by
  unfold State.flagMaskArg
  split
  · exact h _
  · exact .aside

/-! ### The Host Port -/

theorem tallies_startUp (s : State) : Tallies s s.startUp := by
  unfold State.startUp
  dsimp only
  split
  · exact .trans .aside (tallies_enterTrip _)
  · exact .trans .aside (tallies_enterWork _)

theorem tallies_shutDown (s : State) : Tallies s s.shutDown :=
  ((tallies_finishBoundary s).trans .aside).trans (tallies_setAllWaitReasons _ _)

/-- RESTART frees every record and empties the load table (R28, R32). -/
theorem tallies_vacated (u : State) : Tallies u u.vacated :=
  ⟨fun _ => loadsExact_empty (fun i => by rw [State.life_vacated]; rfl) u.load_vacated,
    fun _ _ => reclaimExact_empty u.load_vacated (by simp only [State.vacated, Allocator.restarted])⟩

theorem tallies_restarted (s : State) : Tallies s s.restarted := (tallies_finishBoundary s).trans (tallies_vacated _)

theorem tallies_reset (s : State) : Tallies s { State.reset with pending := s.pending } := by
  obtain ⟨-, -, -, -, loads, reclaim, -⟩ := invariantsHoldAtReset
  exact ⟨fun _ => loads, fun _ _ => reclaim⟩

theorem tallies_writeParam (s : State) (n v : Nat) : Tallies s (s.writeParam n v) := by
  unfold State.writeParam
  split
  · exact .refl s
  · dsimp only
    split
    · exact .trans .aside (tallies_deriveZone _)
    · exact .aside

theorem tallies_configWrite (s : State) (n v : Nat) : Tallies s (s.configWrite n v) := by
  unfold State.configWrite
  split
  · exact .aside
  · split
    · exact .aside
    · split
      · exact .aside
      · exact (tallies_writeParam s n v).ok

theorem tallies_setGates (s : State) (mask : Nat) (g : Gate) : Tallies s (s.setGates mask g) := by
  unfold State.setGates
  dsimp only
  split
  · exact .trans .aside (tallies_trigger _)
  · exact .aside

/-- The head of the free list is a FREE record (R8). -/
theorem State.FreeListExact.head {s : State} (h : s.FreeListExact) {i : RecIdx} {rest : List RecIdx}
    (e : s.pool.freeList = i :: rest) : s.life i = .free :=
  (h.2 i).mp (e ▸ List.mem_cons_self)

theorem tallies_allocFor (s : State) (hf : s.FreeListExact) (b : BayIdx) (r : Request) : Tallies s (s.allocFor b r) := by
  unfold State.allocFor
  split
  · exact .aside
  · split
    · exact .aside
    · rename_i e
      exact (tallies_create s _ _ _ (hf.head e)).trans .aside

theorem tallies_retireGraceful (s : State) (i : RecIdx) : Tallies s (s.retireGraceful i) := by
  unfold State.retireGraceful
  split
  · exact (tallies_enterSpent s _ _ _).ok
  · exact (tallies_enterRetiring s _ _).ok
  · exact .aside
  · exact .aside
  · exact .aside

theorem tallies_retireImmediate (s : State) (i : RecIdx) : Tallies s (s.retireImmediate i) := by
  unfold State.retireImmediate
  split
  · exact (tallies_enterSpent s _ _ _).ok
  · exact (tallies_enterSpent s _ _ _).ok
  · exact (tallies_enterSpent s _ _ _).ok
  · exact .aside
  · exact .aside

theorem tallies_retire (s : State) (args : List Byte) : Tallies s (s.retire args) := by
  unfold State.retire
  split
  · split
    · exact tallies_withHandle s _ _ (tallies_retireGraceful s)
    · split
      · exact tallies_withHandle s _ _ (tallies_retireImmediate s)
      · exact .aside
  · exact .aside

/-- A SPENT record that becomes FREE held no load (R22). -/
theorem tallies_reclaimRecord (s : State) (i : RecIdx) (b : BayIdx) (h : (s.life i).holdsLoad = false) :
    Tallies s (s.reclaimRecord i b) := by
  refine .aside (fun j => ?_) (by rw [State.alloc_reclaimRecord]) (by rw [State.alloc_reclaimRecord]) (by rw [State.alloc_reclaimRecord])
  rw [State.life_reclaimRecord]
  split
  · subst_vars
    exact funext fun p => (Life.loadAt_unloaded rfl p).trans (Life.loadAt_unloaded h p).symm
  · rfl

theorem tallies_openWindow (s : State) (i : RecIdx) (u : Terms) : Tallies s (s.openWindow i u) := by
  unfold State.openWindow
  split
  · exact .aside
  · exact .aside

theorem tallies_putWindow (s : State) (f : EditWindow → EditWindow) : Tallies s (s.putWindow f) := by
  unfold State.putWindow
  split
  · exact .aside
  · exact .aside

theorem tallies_commitWindow (s : State) (w : EditWindow) : Tallies s (s.commitWindow w) := by
  unfold State.commitWindow
  split
  · split
    · exact .aside
    · rename_i passes
      exact Tallies.ok (((tallies_applyChange s _ _ _ passes).trans (tallies_markStale _ _)).trans .aside)
  · exact .aside

theorem tallies_unblock (s : State) (b : BayIdx) : Tallies s (s.unblock b) := by
  unfold State.unblock
  split
  · exact .aside
  · split
    · exact .aside
    · exact Tallies.ok (.trans .aside (tallies_trigger _))

/-! ### The Bay Link -/

theorem tallies_miss (s : State) : Tallies s s.miss := by
  unfold State.miss
  split
  · exact .refl s
  · exact .aside

/-- A REPORT of the polled bay; the end of the visit leaves the free list. -/
theorem tallies_report (s : State) (hf : s.FreeListExact) (f : BayIdx → State → State)
    (h : ∀ b (t : State), t.FreeListExact → Tallies t (f b t)) : Tallies s (s.report f) := by
  unfold State.report
  split
  · exact .refl s
  · exact .trans .aside (h _ (s.endVisit Bay.reported) hf)

theorem tallies_withLinkHandle (s : State) (b : BayIdx) (h : Nat) (f : RecIdx → State → State) (hf : ∀ i, Tallies s (f i s)) :
    Tallies s (s.withLinkHandle b h f) := by
  unfold State.withLinkHandle
  split
  · exact hf _
  · exact .aside

theorem tallies_askFor (s : State) (hf : s.FreeListExact) (b : BayIdx) (r : Request) : Tallies s (s.askFor b r) := by
  unfold State.askFor
  split
  · exact .aside
  · split
    · exact .aside
    · split
      · exact .aside
      · rename_i e
        exact (tallies_create s _ _ _ (hf.head e)).trans .aside

theorem tallies_changeRecord (s : State) (b : BayIdx) (h : Nat) (i : RecIdx) (c : EditCopy) : Tallies s (s.changeRecord b h i c) := by
  unfold State.changeRecord
  split
  · exact .aside
  · rename_i passes
    exact ((tallies_applyChange s _ _ _ passes).trans (tallies_markStale _ _)).trans .aside

theorem tallies_takeChange (s : State) (b : BayIdx) (h requested floor : Nat) : Tallies s (s.takeChange b h requested floor) := by
  unfold State.takeChange
  split
  · exact .aside
  · refine tallies_withLinkHandle s b h _ fun i => ?_
    split
    · exact .aside
    · exact tallies_changeRecord _ _ _ _ _

/-! ### Every command -/

/-- An outcome is a next state that keeps the tally. -/
def TalliesNext (s : State) (o : Host.Outcome State Fault Refusal) : Prop :=
  ∃ t, o = .next t ∧ Tallies s t

theorem Tallies.next {s t : State} (h : Tallies s t) : TalliesNext s (.next t) := ⟨t, rfl, h⟩

theorem execStart_tallies (args : List Byte) (s : State) : TalliesNext s (execStart args s) := by
  refine (tallies_noArgs s args _ ?_).next
  split
  · exact (tallies_startUp s).ok
  · exact .aside

theorem execStop_tallies (args : List Byte) (s : State) : TalliesNext s (execStop args s) := by
  refine (tallies_noArgs s args _ ?_).next
  split
  · exact .aside
  · split
    · exact .aside
    · exact (tallies_shutDown s).ok

theorem execHoldSet_tallies (args : List Byte) (s : State) : TalliesNext s (execHoldSet args s) := by
  refine (tallies_noArgs s args _ ?_).next
  refine Tallies.ok ?_
  split
  · exact .refl s
  · exact tallies_setHoldPort s

theorem execHoldClear_tallies (args : List Byte) (s : State) : TalliesNext s (execHoldClear args s) := by
  refine (tallies_noArgs s args _ ?_).next
  refine Tallies.ok ?_
  split
  · exact tallies_clearHoldPort s
  · exact .refl s

theorem execResume_tallies (args : List Byte) (s : State) : TalliesNext s (execResume args s) := by
  refine (tallies_noArgs s args _ ?_).next
  split
  · exact (tallies_enterWork s).ok
  · exact .aside

theorem execConfigWrite_tallies (args : List Byte) (s : State) : TalliesNext s (execConfigWrite args s) := by
  refine Tallies.next ?_
  split
  · exact tallies_configWrite s _ _
  · exact .aside

theorem execCeilingWrite_tallies (args : List Byte) (s : State) : TalliesNext s (execCeilingWrite args s) := by
  refine Tallies.next ?_
  split
  · split
    · exact Tallies.ok (.trans .aside (tallies_setEffective _ _))
    · exact .aside
  · exact .aside

theorem execBayGate_tallies (args : List Byte) (s : State) : TalliesNext s (execBayGate args s) := by
  refine Tallies.next ?_
  split
  · split
    · exact (tallies_setGates s _ _).ok
    · split
      · exact (tallies_setGates s _ _).ok
      · exact .aside
  · exact .aside

theorem execAlloc_tallies (args : List Byte) (s : State) (hf : s.FreeListExact) : TalliesNext s (execAlloc args s) := by
  refine Tallies.next ?_
  split
  · split
    · split
      · exact tallies_allocFor s hf _ _
      · exact .aside
    · exact .aside
  · exact .aside

theorem execLookupBay_tallies (args : List Byte) (s : State) : TalliesNext s (execLookupBay args s) := by
  refine (tallies_bayArg s args _ fun b => ?_).next
  split
  · exact .aside
  · exact .aside

theorem execReclaim_tallies (args : List Byte) (s : State) : TalliesNext s (execReclaim args s) := by
  refine (tallies_onRecord s args _ fun i => ?_).next
  split
  · rename_i h
    exact (tallies_reclaimRecord s i _ (by rw [h]; rfl)).ok
  · exact .aside

theorem execRenew_tallies (args : List Byte) (s : State) : TalliesNext s (execRenew args s) := by
  refine (tallies_onRecord s args _ fun i => ?_).next
  split
  · exact .aside
  · exact (tallies_reloadLease s i).ok
  · exact .aside

theorem execEditOpen_tallies (args : List Byte) (s : State) : TalliesNext s (execEditOpen args s) := by
  refine (tallies_onRecord s args _ fun i => ?_).next
  split
  · exact tallies_openWindow s i _
  · exact tallies_openWindow s i _
  · exact .aside

theorem execEditPut_tallies (args : List Byte) (s : State) : TalliesNext s (execEditPut args s) := by
  refine Tallies.next ?_
  split
  · split
    · exact tallies_putWindow s _
    · exact .aside
  · exact .aside

theorem execEditTaper_tallies (args : List Byte) (s : State) : TalliesNext s (execEditTaper args s) := by
  refine Tallies.next ?_
  split
  · exact tallies_putWindow s _
  · exact .aside

theorem execEditCommit_tallies (args : List Byte) (s : State) : TalliesNext s (execEditCommit args s) := by
  refine (tallies_noArgs s args _ ?_).next
  split
  · exact .aside
  · split
    · exact .aside
    · split
      · exact .aside
      · exact tallies_commitWindow s _

theorem execEditDrop_tallies (args : List Byte) (s : State) : TalliesNext s (execEditDrop args s) := by
  refine (tallies_noArgs s args _ ?_).next
  split
  · exact .aside
  · exact .aside

theorem execCalStart_tallies (args : List Byte) (s : State) : TalliesNext s (execCalStart args s) := by
  refine (tallies_bayArg s args _ fun b => ?_).next
  split
  · exact .aside
  · exact .aside

theorem execSampleRequest_tallies (args : List Byte) (s : State) : TalliesNext s (execSampleRequest args s) := by
  refine (tallies_channelArg s args _ fun c => ?_).next
  split
  · exact .aside
  · exact .aside

theorem execClockReturn_tallies (arrival : ReturnArrival) (s : State) : TalliesNext s (execClockReturn arrival s) := by
  refine (tallies_noArgs s arrival.args _ ?_).next
  split
  · exact .aside
  · split
    · exact .aside
    · exact .aside

/-- A command that only reports. -/
theorem noArgs_answer_tallies (s : State) (args : List Byte) (l : State → List Byte) :
    TalliesNext s (.next (s.noArgs args fun s => s.answer .ok (l s))) :=
  (tallies_noArgs s args _ .aside).next

/-- A change of the Attention Unit. -/
theorem tallies_attention (s : State) (a : Attention) : Tallies s { s with attention := a } := .aside

theorem tallies_clearFlags (s : State) (m : Nat) : Tallies s (s.clearFlags m) := .aside

theorem execFlagsRead_tallies (args : List Byte) (s : State) : TalliesNext s (execFlagsRead args s) :=
  (tallies_noArgs s args _ ((tallies_attention s s.attention.see).trans .aside)).next

theorem execFlagsClear_tallies (args : List Byte) (s : State) : TalliesNext s (execFlagsClear args s) :=
  (tallies_flagMaskArg s args _ fun m => (tallies_clearFlags s m).ok).next

theorem execFlagsEnable_tallies (args : List Byte) (s : State) : TalliesNext s (execFlagsEnable args s) :=
  (tallies_flagMaskArg s args _ fun m => (tallies_attention s { s.attention with enables := BitVec.ofNat 22 m }).ok).next

theorem execPollSend_tallies (s : State) : TalliesNext s (execPollSend s) := by
  refine Tallies.next ?_
  split
  · exact .aside
  · exact .refl s

theorem execAsk_tallies (cls : Byte) (requested floor : Half) (lease mask value : Byte) (s : State) (hf : s.FreeListExact) :
    TalliesNext s (execAsk cls requested floor lease mask value s) := by
  refine (tallies_report s hf _ fun b t ht => ?_).next
  split
  · exact tallies_askFor t ht b _
  · exact .aside

theorem execLinkRenew_tallies (h : Half) (s : State) (hf : s.FreeListExact) : TalliesNext s (execLinkRenew h s) := by
  refine (tallies_report s hf _ fun b t _ => tallies_withLinkHandle t b _ _ fun i => ?_).next
  split
  · exact .aside
  · exact (tallies_reloadLease t i).trans .aside

theorem execRelease_tallies (h : Half) (s : State) (hf : s.FreeListExact) : TalliesNext s (execRelease h s) := by
  refine (tallies_report s hf _ fun b t _ => tallies_withLinkHandle t b _ _ fun i => ?_).next
  split
  · exact (tallies_enterSpent t i _ _).trans .aside
  · exact (tallies_enterRetiring t i _).trans .aside
  · exact .aside

theorem execAdmissionPass_tallies (s : State) : TalliesNext s (execAdmissionPass s) := by
  refine Tallies.next ?_
  split
  · exact .refl s
  · split
    · exact tallies_pass s
    · exact .aside

theorem execPeriodBoundary_tallies (later : List BoundaryPart) (s : State) : TalliesNext s (execPeriodBoundary later s) := by
  refine Tallies.next ?_
  split
  · exact (tallies_finishBoundary s).trans (tallies_boundary _ _)
  · exact .refl s

theorem execMillisecondTick_tallies (s : State) : TalliesNext s (execMillisecondTick s) := by
  refine Tallies.next ?_
  split
  · exact (tallies_finishBoundary s).trans .aside
  · exact .refl s

theorem execStrikeWindowEnd_tallies (i : RecIdx) (s : State) : TalliesNext s (execStrikeWindowEnd i s) := by
  refine Tallies.next ?_
  split
  · split
    · exact tallies_takeOutstanding _ _
    · exact .refl s
  · exact .refl s

theorem execCloseWindowEnd_tallies (s : State) : TalliesNext s (execCloseWindowEnd s) := by
  refine Tallies.next ?_
  split
  · exact tallies_takeOutstanding _ _
  · exact .refl s

theorem execSettleEnd_tallies (b : BayIdx) (s : State) : TalliesNext s (execSettleEnd b s) := by
  refine Tallies.next ?_
  split
  · exact tallies_takeOutstanding _ _
  · exact .refl s

theorem execConversionEnd_tallies (reading : Reading) (s : State) : TalliesNext s (execConversionEnd reading s) := by
  refine Tallies.next ?_
  split
  · exact ((tallies_converting s).trans .aside).trans (tallies_deliver s.converting.1.nextConversion _ _)
  · exact ((tallies_converting s).trans (tallies_deliver _ _ _)).trans .aside

/-- Every command and event keeps the tally; ALLOC and ASK need the free list exact. -/
theorem exec_tallies (c : Instr) (s : State) (hf : s.FreeListExact) : TalliesNext s (exec c s) := by
  cases c with
  | deviceReset => exact (tallies_reset s).next
  | start args => exact execStart_tallies args s
  | stop args => exact execStop_tallies args s
  | restart args => exact (tallies_noArgs s args (fun s => s.restarted.ok) (tallies_restarted s).ok).next
  | holdSet args => exact execHoldSet_tallies args s
  | holdClear args => exact execHoldClear_tallies args s
  | resume args => exact execResume_tallies args s
  | configWrite args => exact execConfigWrite_tallies args s
  | configRead args => exact noArgs_answer_tallies s args _
  | ceilingWrite args => exact execCeilingWrite_tallies args s
  | bayGate args => exact execBayGate_tallies args s
  | alloc args => exact execAlloc_tallies args s hf
  | lookupHandle args => exact (tallies_onRecord s args _ fun i => .aside).next
  | lookupBay args => exact execLookupBay_tallies args s
  | retireGraceful args => exact (tallies_retire s args).next
  | retireImmediate args => exact (tallies_retire s args).next
  | reclaim args => exact execReclaim_tallies args s
  | renew args => exact execRenew_tallies args s
  | editOpen args => exact execEditOpen_tallies args s
  | editPut args => exact execEditPut_tallies args s
  | editTaper args => exact execEditTaper_tallies args s
  | editCommit args => exact execEditCommit_tallies args s
  | editDrop args => exact execEditDrop_tallies args s
  | queueRead args => exact noArgs_answer_tallies s args _
  | orderRead args => exact noArgs_answer_tallies s args _
  | loadRead args => exact noArgs_answer_tallies s args _
  | bayRead args => exact (tallies_bayArg s args _ fun _ => .aside).next
  | bayUnblock args => exact (tallies_bayArg s args _ fun b => tallies_unblock s b).next
  | calStart args => exact execCalStart_tallies args s
  | sampleRequest args => exact execSampleRequest_tallies args s
  | sampleRead args => exact (tallies_channelArg s args _ fun _ => .aside).next
  | clockReturn arrival => exact execClockReturn_tallies arrival s
  | clockRead args => exact noArgs_answer_tallies s args _
  | flagsRead args => exact execFlagsRead_tallies args s
  | flagsClear args => exact execFlagsClear_tallies args s
  | flagsEnable args => exact execFlagsEnable_tallies args s
  | identRead args => exact noArgs_answer_tallies s args _
  | badCommand code args => exact Tallies.next .aside
  | transactionAbort sent => exact Tallies.next .aside
  | pollSend => exact execPollSend_tallies s
  | replyWindowExpiry => exact (tallies_miss s).next
  | badFrame => exact (tallies_miss s).next
  | foreignFrame => exact (tallies_miss s).next
  | reportNone => exact (tallies_report s hf _ fun _ t _ => .refl t).next
  | ask cls requested floor lease mask value => exact execAsk_tallies cls requested floor lease mask value s hf
  | change handle requested floor => exact (tallies_report s hf _ fun b t _ => tallies_takeChange t b _ _ _).next
  | linkRenew handle => exact execLinkRenew_tallies handle s hf
  | release handle => exact execRelease_tallies handle s hf
  | admissionPass => exact execAdmissionPass_tallies s
  | periodBoundary later => exact execPeriodBoundary_tallies later s
  | leaseEnd i => exact (tallies_recordEvent s i _).next
  | taperStepAdvance i => exact (tallies_recordEvent s i _).next
  | taperEnd i => exact (tallies_recordEvent s i _).next
  | rampTimeout i => exact (tallies_recordEvent s i _).next
  | strikeWindowEnd i => exact execStrikeWindowEnd_tallies i s
  | closeWindowEnd => exact execCloseWindowEnd_tallies s
  | settleEnd b => exact execSettleEnd_tallies b s
  | signalPeriodStart => exact Tallies.next .aside
  | conversionEnd reading => exact execConversionEnd_tallies reading s
  | checkWindowEnd cycles => exact Tallies.next (.trans .aside (tallies_judgeWindow (s.latched cycles) _))
  | millisecondTick => exact execMillisecondTick_tallies s

/-- Every step keeps the tally; the queue is not of it. -/
theorem step_tallies {s t : State} (hf : s.FreeListExact) (h : step s = .next t) : Tallies s t := by
  unfold step at h
  split at h
  · cases h
    exact .refl s
  · rename_i c rest _
    obtain ⟨u, e, k⟩ := exec_tallies c { s with pending := rest } hf
    rw [e] at h
    cases h
    exact .trans .aside k

/-- The contribution of a record to a position, state by state (R29, R30). -/
theorem Life.loadAt_cases (l : Life) (p : Position) : l.loadAt p = match l with
    | .granted u g => if u.onAt p then max g.active g.staged else 0
    | .retiring u a _ _ => if u.onAt p then a else 0
    | _ => 0 := by
  cases l with
  | granted | retiring => rfl
  | _ => exact Life.loadAt_unloaded rfl p

end Sys2Proof.Machine

open Sys2Proof Sys2Proof.Machine

/-- Settles O55: loads move only with the contribution of one record, which rises only within room, and the evaluations follow them. -/
theorem loadsStayExact : Obligations.LoadsStayExact :=
  ⟨Life.loadAt_cases, fun _ _ hf h e => (step_tallies hf e).loads h, fun _ _ hf hl h e => (step_tallies hf e).reclaim hl h⟩

end

section
/-!
CEILING.WRITE but for a fall below some load (O11): what each case of a recomputed effective ceiling is once its evaluation is taken.
-/
set_option Elab.async false

namespace Sys2Proof.Machine

/-! ### The evaluation of a rise -/

/-- Outside reclaiming, and while some load exceeds the effective ceiling, an evaluation changes nothing (R134). -/
theorem State.evaluate_stands (s : State) (h : s.alloc.reclaiming = false ∨ ∃ p, s.alloc.effCeiling < s.load p) : s.evaluate = s := by
  refine if_neg fun ⟨reclaiming, fits⟩ => ?_
  rcases h with outside | ⟨p, hp⟩
  · exact Bool.false_ne_true (outside.symm.trans reclaiming)
  · exact absurd hp ((Allocator.fits_iff s.alloc).mp fits p).not_gt

/-- While reclaiming, an evaluation under which every load fits ends it, which raises RECLAIM and is a trigger (R134, R140). -/
theorem State.evaluate_ends (s : State) (reclaiming : s.alloc.reclaiming = true) (fits : ∀ p, s.load p ≤ s.alloc.effCeiling) :
    s.evaluate = ({ s with alloc := { s.alloc with reclaiming := false } }.raise flagReclaim).trigger :=
  if_pos ⟨reclaiming, (Allocator.fits_iff s.alloc).mpr fits⟩

/-- A rise outside reclaiming is a pass trigger (R139). -/
theorem State.setEffective_rise_outside (s : State) (e : Nat) (h : s.alloc.effCeiling < e) (outside : s.alloc.reclaiming = false) :
    s.setEffective e = { s with alloc := { s.alloc with
      effCeiling := e, passDue := s.alloc.passDue || (s.alloc.opState == OpState.running) } } := by
  refine (s.setEffective_rise e h).trans ((congrArg State.trigger
    (State.evaluate_stands { s with alloc := { s.alloc with effCeiling := e } } (.inl outside))).trans ?_)
  rw [State.trigger_eq]
  simp only [outside, Bool.not_false, Bool.and_true]

/-- A rise under which some load still does not fit leaves reclaiming as it is (R139). -/
theorem State.setEffective_rise_continues (s : State) (e : Nat) (h : s.alloc.effCeiling < e) (reclaiming : s.alloc.reclaiming = true)
    (excess : ∃ p, e < s.load p) : s.setEffective e = { s with alloc := { s.alloc with effCeiling := e } } := by
  refine (s.setEffective_rise e h).trans ((congrArg State.trigger
    (State.evaluate_stands { s with alloc := { s.alloc with effCeiling := e } } (.inr excess))).trans (if_neg ?_))
  exact fun ⟨_, outside⟩ => Bool.false_ne_true (outside.symm.trans reclaiming)

/-- A rise under which every load fits ends reclaiming (R139, R140). -/
theorem State.setEffective_rise_ends (s : State) (e : Nat) (h : s.alloc.effCeiling < e) (reclaiming : s.alloc.reclaiming = true)
    (fits : ∀ p, s.load p ≤ e) : s.setEffective e = { s with alloc := { s.alloc with
      effCeiling := e, reclaiming := false, passDue := s.alloc.passDue || (s.alloc.opState == OpState.running) } }.raise flagReclaim := by
  refine (s.setEffective_rise e h).trans ((congrArg State.trigger
    (State.evaluate_ends { s with alloc := { s.alloc with effCeiling := e } } reclaiming fits)).trans ?_)
  simp [State.trigger_eq, State.raise]

/-! ### CEILING.WRITE -/

/-- A ceiling that is taken: the effective ceiling of the zone held follows (R133, R162). -/
theorem exec_ceilingWrite_takes (s : State) (hi lo : Byte) (e : Nat) (hv : u16 hi lo ≤ 2500)
    (he : e = u16 hi lo * s.thermal.zone.factor / 100) {t : State}
    (h : State.setEffective { s with alloc := { s.alloc with ceiling := u16 hi lo } } e = t) :
    exec (.ceilingWrite [hi, lo]) s = .next t.ok := by
  rw [exec_ceilingWrite s hi lo hv, ← h, he]
  rfl

theorem exec_ceilingWrite_badArg (s : State) (hi lo : Byte) (h : 2500 < u16 hi lo) :
    exec (.ceilingWrite [hi, lo]) s = .next (s.refuse .badArg) :=
  congrArg _ (if_neg h.not_ge)

end Sys2Proof.Machine

open Sys2Proof Sys2Proof.Machine

/-- Settles O11: the effective ceiling stands, falls without reaching a load, or rises, and a rise is evaluated while reclaiming. -/
theorem ceilingWriteTaken : Obligations.CeilingWriteTaken := by
  intro hi lo s
  refine ⟨exec_ceilingWrite_badArg s hi lo, fun e hv he => ⟨?_, fun rise outside => ?_, fun rise reclaiming excess => ?_,
    fun rise reclaiming fits => ?_⟩⟩
  · rintro (equal | ⟨fall, -, fits⟩)
    · rw [equal] at he ⊢
      exact exec_ceilingWrite_takes s hi lo _ hv he (State.setEffective_equal _)
    · exact exec_ceilingWrite_takes s hi lo e hv he (State.setEffective_fall _ e fall fits)
  · exact exec_ceilingWrite_takes s hi lo e hv he (State.setEffective_rise_outside _ e rise outside)
  · exact exec_ceilingWrite_takes s hi lo e hv he (State.setEffective_rise_continues _ e rise reclaiming excess)
  · exact exec_ceilingWrite_takes s hi lo e hv he (State.setEffective_rise_ends _ e rise reclaiming fits)

end

section
/-!
The report instructions (O23): each replies its image and changes nothing else, and the bytes of each image.
-/
set_option Elab.async false

namespace Sys2Proof.Machine

/-! ### Single bytes -/

theorem byteOf_toNat (b : Byte) : byteOf b.toNat = b :=
  BitVec.eq_of_toNat_eq (Nat.mod_eq_of_lt b.isLt)

theorem byteOf_yesNo (b : Bool) : byteOf (yesNo b) = if b then 1 else 0 := by
  cases b <;> rfl

/-! ### The images -/

/-- The entry of a record that waits (R51, R184). -/
theorem State.queueEntry_waiting (s : State) {i : RecIdx} {u : Terms} {r : WaitReason} (h : s.life i = .waiting u r) :
    s.queueEntry i = be16 (s.handle i) ++ [byteOf u.bay.val, byteOf u.cls.val] ++ be16 u.requested ++ be16 u.floor ++
      [byteOf r.code] := by
  unfold State.queueEntry
  rw [h]
  rfl

/-- The entry of a record that holds a grant (R52, R184). -/
theorem State.orderEntry_granted (s : State) {i : RecIdx} {u : Terms} {g : Grant} (h : s.life i = .granted u g) :
    s.orderEntry i = be16 (s.handle i) ++ [byteOf u.bay.val, byteOf u.cls.val] ++ be16 u.floor ++ be16 u.requested ++
      be16 g.staged ++ be16 g.active := by
  unfold State.orderEntry
  rw [h]
  rfl

theorem State.queueImage_of_waiting (s : State) (u : RecIdx → Terms) (r : RecIdx → WaitReason)
    (h : ∀ i ∈ s.alloc.waitQueue, s.life i = .waiting (u i) (r i)) :
    s.queueImage = byteOf s.alloc.waitQueue.length :: s.alloc.waitQueue.flatMap fun i =>
      be16 (s.handle i) ++ [byteOf (u i).bay.val, byteOf (u i).cls.val] ++ be16 (u i).requested ++ be16 (u i).floor ++
        [byteOf (r i).code] :=
  congrArg _ (List.flatMap_congr fun i hi => s.queueEntry_waiting (h i hi))

theorem State.orderImage_of_granted (s : State) (u : RecIdx → Terms) (g : RecIdx → Grant)
    (h : ∀ i ∈ s.alloc.grantOrder, s.life i = .granted (u i) (g i)) :
    s.orderImage = byteOf s.alloc.grantOrder.length :: s.alloc.grantOrder.flatMap fun i =>
      be16 (s.handle i) ++ [byteOf (u i).bay.val, byteOf (u i).cls.val] ++ be16 (u i).floor ++ be16 (u i).requested ++
        be16 (g i).staged ++ be16 (g i).active :=
  congrArg _ (List.flatMap_congr fun i hi => s.orderEntry_granted (h i hi))

theorem State.loadImage_eq (s : State) :
    s.loadImage = (List.finRange 64).flatMap (fun p => be16 (s.load p)) ++ be16 s.alloc.ceiling ++ [byteOf s.thermal.zone.factor] ++
      be16 s.alloc.effCeiling ++ [if s.alloc.reclaiming then 1 else 0] := by
  rw [← byteOf_yesNo]
  rfl

/-- The filtered temperature code in one byte, 255 while it is EMPTY (R163). -/
theorem byteOf_filtered (o : Option Nat) : byteOf (o.getD 255) = match o with | some f => byteOf f | none => 255 := by
  cases o <;> rfl

theorem State.configImage_eq (s : State) :
    s.configImage = be16 s.params.periodLength ++ be16 s.params.tolerance ++ be16 s.params.strikeLimit ++ be16 s.params.strikeWindow ++
      be16 s.params.closeLimit ++ be16 s.params.closeWindow ++ be16 s.params.retireTimeout ++ be16 s.params.restThreshold ++
      be16 s.params.strayThreshold ++ be16 s.params.feedMargin ++ be16 s.params.squeezeClasses.toNat ++ be16 s.params.warmCode ++
      be16 s.params.hotCode ++ be16 s.params.criticalCode ++ be16 s.params.hysteresis ++ be16 s.params.calSettle ++
      be16 s.params.bandLow ++ be16 s.params.bandHigh ++ be16 s.alloc.ceiling ++
      [byteOf s.alloc.opState.code, if s.alloc.holdPort then 1 else 0, if s.alloc.holdClock then 1 else 0,
        match s.thermal.filtered with | some f => byteOf f | none => 255, byteOf s.thermal.zone.code,
        if s.timer.running then 1 else 0] ++
      be16 s.timer.ms ++ [byteOf s.timer.position.val] ++ be16 s.closeWindowLeft := by
  rw [← byteOf_yesNo, ← byteOf_yesNo, ← byteOf_yesNo]
  simp only [State.configImage, byteOf_filtered, Params.values, List.flatMap_cons, List.flatMap_nil, List.append_assoc,
    List.nil_append]

theorem State.clockImage_eq (s : State) :
    s.clockImage = [byteOf s.clock.state.code] ++ be16 s.clock.latestCount ++
      [if s.clock.countValid then 1 else 0, if s.clock.returnPending then 1 else 0, byteOf s.clock.goodWindows,
        if s.alloc.holdClock then 1 else 0] := by
  rw [← byteOf_yesNo, ← byteOf_yesNo, ← byteOf_yesNo]
  rfl

theorem EventSet.code_eq (e : EventSet) : e.code = (if e.admitted then 1 else 0) + (if e.spent then 2 else 0) +
    (if e.calDone then 4 else 0) + (if e.blocked then 8 else 0) := by
  simp only [EventSet.code, yesNo, mul_ite, mul_one, mul_zero]

/-- The answer slot: its code and handle, 0 and 65535 while it is empty (R176). -/
theorem answerSlot_image (o : Option Answer) :
    byteOf ((o.map fun a => a.code.code).getD 0) :: be16 ((o.map Answer.handle).getD noHandle) =
      match o with | some a => byteOf a.code.code :: be16 a.handle | none => [0, 255, 255] := by
  cases o <;> rfl

theorem State.bayImage_eq (s : State) (b : Byte) (h : b.toNat < 16) :
    let y := s.bay ⟨b.toNat, h⟩
    s.bayImage ⟨b.toNat, h⟩ = [b] ++
      be16 (match y.record with | some i => s.handle i | none => 65535) ++
      be16 (match y.lastSpent with | some n => n | none => 65535) ++
      [byteOf ((if y.events.admitted then 1 else 0) + (if y.events.spent then 2 else 0) + (if y.events.calDone then 4 else 0) +
          (if y.events.blocked then 8 else 0)),
        byteOf y.presence.code, byteOf y.missCount] ++
      (match y.answer with | some a => byteOf a.code.code :: be16 a.handle | none => [0, 255, 255]) ++
      [byteOf y.gate.code, byteOf y.enable.code, byteOf y.blockCause.code] ++ be16 y.limit ++ be16 y.inEffectDuty ++
      be16 (match y.decreaseGrace with | some n => n | none => 0) ++
      [byteOf y.closeCount, byteOf y.calState.code, byteOf y.lastResult.code, BitVec.ofInt 8 y.offset] ++ be16 y.latestSample := by
  intro y
  have record : (y.record.map s.handle).getD noHandle = match y.record with | some i => s.handle i | none => 65535 := by
    cases y.record <;> rfl
  have spent : y.lastSpent.getD noHandle = match y.lastSpent with | some n => n | none => 65535 := by
    cases y.lastSpent <;> rfl
  have grace : y.decreaseGrace.getD 0 = match y.decreaseGrace with | some n => n | none => 0 := by
    cases y.decreaseGrace <;> rfl
  rw [← record, ← spent, ← grace, ← EventSet.code_eq, ← answerSlot_image]
  simp only [State.bayImage, byteOf_toNat, List.append_assoc, List.cons_append, List.nil_append, y]

/-! ### The instructions with an argument -/

theorem exec_bayRead_badArg (s : State) (b : Byte) (h : 15 < b.toNat) : exec (.bayRead [b]) s = .next (s.refuse .badArg) :=
  congrArg _ (s.bayArg_badArg b _ h)

theorem exec_bayRead (s : State) (b : Byte) (h : b.toNat < 16) :
    exec (.bayRead [b]) s = .next (s.answer .ok (s.bayImage ⟨b.toNat, h⟩)) :=
  congrArg _ (s.bayArg_of_lt b _ h)

theorem exec_sampleRead_badArg (s : State) (c : Byte) (h : 17 < c.toNat) : exec (.sampleRead [c]) s = .next (s.refuse .badArg) :=
  congrArg _ (s.channelArg_badArg c _ h)

theorem exec_sampleRead (s : State) (c : Byte) (h : c.toNat < 18) :
    exec (.sampleRead [c]) s = .next (s.answer .ok
      ((if (s.sampler.holders.get ⟨c.toNat, h⟩).ready then 1 else 0) :: be16 (s.sampler.holders.get ⟨c.toNat, h⟩).result)) := by
  rw [← byteOf_yesNo]
  exact congrArg _ (s.channelArg_of_lt c _ h)

end Sys2Proof.Machine

open Sys2Proof Sys2Proof.Machine

/-- Settles O23: each report instruction by its handler, each image by its equation, and the code tables by computation. -/
theorem reportsOnlyReply : Obligations.ReportsOnlyReply := by
  refine ⟨fun s => ⟨rfl, s.queueImage_of_waiting, rfl, s.orderImage_of_granted, rfl, s.loadImage_eq, rfl, s.configImage_eq, rfl,
    s.clockImage_eq, rfl, fun b => ⟨exec_bayRead_badArg s b, fun h => ⟨exec_bayRead s b h, s.bayImage_eq b h⟩⟩,
    fun c => ⟨exec_sampleRead_badArg s c, exec_sampleRead s c⟩⟩, rfl, rfl, rfl, rfl, rfl, rfl, rfl, rfl, rfl, rfl, rfl⟩

end

section
/-!
ADMISSION_PASS (O36): when it runs, and what a pass makes of every record and of the lists.
-/
set_option Elab.async false

namespace Sys2Proof.Machine

/-! ### When the pass runs -/

/-- With no pass due there is none (R39). -/
theorem exec_admissionPass_notDue (s : State) (h : s.alloc.passDue = false) : exec .admissionPass s = .next s :=
  congrArg _ (if_pos h)

/-- A pass due outside RUNNING or while reclaiming is dropped (R136, R141). -/
theorem exec_admissionPass_drops (s : State) (due : s.alloc.passDue = true) (h : s.alloc.opState ≠ .running ∨ s.alloc.reclaiming = true) :
    exec .admissionPass s = .next { s with alloc := { s.alloc with passDue := false } } := by
  refine congrArg _ ((if_neg (by simp [due])).trans (if_neg fun ⟨running, outside⟩ => ?_))
  exact h.elim (fun n => n running) fun reclaiming => Bool.false_ne_true (outside.symm.trans reclaiming)

/-- A pass due in RUNNING outside reclaiming runs (R40). -/
theorem exec_admissionPass_runs (s : State) (due : s.alloc.passDue = true) (running : s.alloc.opState = .running)
    (outside : s.alloc.reclaiming = false) : exec .admissionPass s = .next s.pass :=
  congrArg _ ((if_neg (by simp [due])).trans (if_pos ⟨running, outside⟩))

/-! ### What a pass makes of one record -/

/-- A life before and after a part of a pass that may grant the record: a WAITING one waits on or is GRANTED within its terms, a GRANTED one
keeps all but its staged grant, which stays within its terms, and any other stands. -/
def Life.Passed (admitted : Prop) (x y : Life) : Prop :=
  match x with
  | .waiting u _ => (∃ r, y = .waiting u r ∧ ¬ admitted) ∨
      ∃ g, y = .granted u g ∧ admitted ∧ g.active = 0 ∧ u.floor ≤ g.staged ∧ g.staged ≤ u.requested
  | .granted u g => ∃ v, y = .granted u { g with staged := v } ∧ u.floor ≤ v ∧ v ≤ u.requested
  | x => y = x

theorem Life.Passed.trans {a b : Prop} {x y z : Life} (h : Life.Passed a x y) (k : Life.Passed b y z) : Life.Passed (a ∨ b) x z := by
  cases x with
  | waiting u r =>
    rcases h with ⟨r', rfl, notA⟩ | ⟨g, rfl, hA, active, floor, requested⟩
    · rcases k with ⟨r'', rfl, notB⟩ | ⟨g, rfl, hB, within⟩
      · exact .inl ⟨r'', rfl, not_or.mpr ⟨notA, notB⟩⟩
      · exact .inr ⟨g, rfl, .inr hB, within⟩
    · obtain ⟨v, rfl, within⟩ := k
      exact .inr ⟨_, rfl, .inl hA, active, within⟩
  | granted u g =>
    obtain ⟨v, rfl, _⟩ := h
    exact k
  | free => cases h; exact k
  | retiring u n c w => cases h; exact k
  | spent u c f => cases h; exact k

/-- A record that stands. -/
theorem State.GrantsWithinTerms.passed_self {s : State} (h : s.GrantsWithinTerms) (i : RecIdx) {admitted : Prop} (no : ¬ admitted) :
    Life.Passed admitted (s.life i) (s.life i) := by
  cases e : s.life i with
  | waiting u r => exact .inl ⟨r, rfl, no⟩
  | granted u g => exact ⟨g.staged, rfl, (h i).2 u g e⟩
  | _ => rfl

/-- A pass leaves the terms of every record (R1). -/
theorem Life.Passed.terms? {a : Prop} {x y : Life} (h : Life.Passed a x y) : y.terms? = x.terms? := by
  cases x with
  | waiting u r =>
    rcases h with ⟨_, rfl, _⟩ | ⟨_, rfl, _⟩
    · rfl
    · rfl
  | granted u g => obtain ⟨_, rfl, _⟩ := h; rfl
  | free => cases h; rfl
  | retiring u n c w => cases h; rfl
  | spent u c f => cases h; rfl

/-- A record GRANTED after a pass has its staged grant within its terms (R25). -/
theorem Life.Passed.within {a : Prop} {x y : Life} (h : Life.Passed a x y) {u : Terms} {g : Grant} (e : y = .granted u g) :
    u.floor ≤ g.staged ∧ g.staged ≤ u.requested := by
  subst e
  cases x with
  | waiting _ _ =>
    rcases h with ⟨_, e, _⟩ | ⟨_, e, _, _, within⟩
    · cases e
    · cases e
      exact within
  | granted _ _ =>
    obtain ⟨_, e, within⟩ := h
    cases e
    exact within
  | free => cases h
  | retiring _ _ _ _ => cases h
  | spent _ _ _ => cases h

/-! ### What a part of a pass makes of the state -/

/-- A part of a pass that admits the records of `l` in this order. -/
structure Passed (s t : State) (l : List RecIdx) : Prop where
  lives : ∀ i, Life.Passed (i ∈ l) (s.life i) (t.life i)
  grantOrder : t.alloc.grantOrder = s.alloc.grantOrder ++ l
  waitQueue : t.alloc.waitQueue = s.alloc.waitQueue.filter fun i => !l.contains i
  reclaiming : s.alloc.reclaiming = false → t.alloc.reclaiming = false
  bays : ∀ b, (t.bay b).record = (s.bay b).record ∧ (t.bay b).blockCause = (s.bay b).blockCause ∧
    (t.bay b).limit = (s.bay b).limit ∧ (t.bay b).latestSample = (s.bay b).latestSample

theorem Passed.trans {s t v : State} {l k : List RecIdx} (h : Passed s t l) (n : Passed t v k) : Passed s v (l ++ k) where
  lives i := by
    rw [List.mem_append]
    exact (h.lives i).trans (n.lives i)
  grantOrder := by rw [n.grantOrder, h.grantOrder, List.append_assoc]
  waitQueue := by
    rw [n.waitQueue, h.waitQueue, List.filter_filter]
    exact List.filter_congr fun i _ => by simp [Bool.and_comm]
  reclaiming outside := n.reclaiming (h.reclaiming outside)
  bays b := by
    obtain ⟨record, cause, limit, sample⟩ := n.bays b
    obtain ⟨record', cause', limit', sample'⟩ := h.bays b
    exact ⟨record.trans record', cause.trans cause', limit.trans limit', sample.trans sample'⟩

/-- A part of a pass that admits no record and leaves the lists and the bays. -/
theorem Passed.of_lives {s t : State} (lives : ∀ i, Life.Passed (i ∈ ([] : List RecIdx)) (s.life i) (t.life i))
    (grantOrder : t.alloc.grantOrder = s.alloc.grantOrder) (waitQueue : t.alloc.waitQueue = s.alloc.waitQueue)
    (reclaiming : s.alloc.reclaiming = false → t.alloc.reclaiming = false) (bays : t.bays = s.bays) : Passed s t [] where
  lives := lives
  grantOrder := by rw [grantOrder, List.append_nil]
  waitQueue := by rw [waitQueue]; simp
  reclaiming := reclaiming
  bays b := by
    have bay : t.bay b = s.bay b := State.bay_congr bays b
    rw [bay]
    exact ⟨rfl, rfl, rfl, rfl⟩

/-- After a part of a pass every grant is within its record's terms again (R25). -/
theorem Passed.grantsWithinTerms {s t : State} {l : List RecIdx} (h : Passed s t l) (within : s.GrantsWithinTerms) :
    t.GrantsWithinTerms := by
  refine fun i => ⟨fun u hu => (within i).1 u ?_, fun u g hg => (h.lives i).within hg⟩
  rw [← (h.lives i).terms?]
  exact hu

theorem Passed.refl {s : State} (within : s.GrantsWithinTerms) : Passed s s [] :=
  .of_lives (fun i => within.passed_self i List.not_mem_nil) rfl rfl id rfl

/-! ### The steps of a pass -/

section
variable {s t : State} (within : s.GrantsWithinTerms)
include within

/-- A record passed over (R41). -/
theorem passed_over {i : RecIdx} {u : Terms} {r : WaitReason} (h : s.life i = .waiting u r) (r' : WaitReason) :
    Passed s (s.setLife i (.waiting u r')) [] := by
  refine .of_lives (fun j => ?_) rfl rfl id rfl
  rw [State.life_setLife]
  by_cases hj : j = i
  · rw [if_pos hj, hj, h]
    exact .inl ⟨r', rfl, List.not_mem_nil⟩
  · rw [if_neg hj]
    exact within.passed_self j List.not_mem_nil

/-- A list of records that wait with BUDGET (R42). -/
theorem WaitForBudget.passed {l : List RecIdx} (h : WaitForBudget s t l) : Passed s t [] := by
  obtain ⟨records, frame⟩ := h
  have lives : ∀ j, t.life j = if j ∈ l then (s.life j).withReason .budget else s.life j := fun j => by rw [State.life, records j]
  have alloc : t.alloc = s.alloc := by rw [frame]
  refine .of_lives (fun j => ?_) (by rw [alloc]) (by rw [alloc]) (by rw [alloc]; exact id) (by rw [frame])
  have self := within.passed_self j (List.not_mem_nil (a := j))
  rw [lives]
  split
  · cases e : s.life j with
    | waiting u r => exact .inl ⟨_, rfl, List.not_mem_nil⟩
    | _ =>
      rw [e] at self
      exact self
  · exact self

/-- A staged grant that takes a value within its record's terms (R47, R50). -/
theorem Stages.passed {j : RecIdx} {v : Terms} {g : Grant} {n : Nat} (h : Stages s t j v g n) (hj : s.life j = .granted v g)
    (floor : v.floor ≤ n) (requested : n ≤ v.requested) : Passed s t [] := by
  refine .of_lives (fun k => ?_) (by rw [h.frame]) (by rw [h.frame]) (fun outside => ?_) (by rw [h.frame])
  · by_cases hk : k = j
    · rw [hk, hj, h.life]
      exact ⟨n, rfl, floor, requested⟩
    · rw [h.otherLives k hk]
      exact within.passed_self k List.not_mem_nil
  · refine Bool.eq_false_iff.mpr fun reclaiming => ?_
    exact Bool.false_ne_true (outside.symm.trans (h.reclaiming.mp reclaiming).1)

/-- An admission with a grant within the record's terms (R43). -/
theorem Admits.passed {i : RecIdx} {u : Terms} {r : WaitReason} {n : Nat} (h : Admits s t i u n) (hi : s.life i = .waiting u r)
    (floor : u.floor ≤ n) (requested : n ≤ u.requested) : Passed s t [i] where
  lives j := by
    by_cases hj : j = i
    · rw [hj, hi, h.life]
      exact .inr ⟨_, rfl, List.mem_singleton_self i, rfl, floor, requested⟩
    · rw [h.otherLives j hj]
      exact within.passed_self j fun hm => hj (List.mem_singleton.mp hm)
  grantOrder := by rw [h.frame]
  waitQueue := by
    rw [h.frame]
    exact List.filter_congr fun j _ => by simp
  reclaiming outside := by
    rw [h.frame]
    exact outside
  bays b := by
    by_cases hb : b = u.bay
    · rw [hb, h.bay]
      exact ⟨rfl, rfl, rfl, rfl⟩
    · rw [h.otherBays b hb]
      exact ⟨rfl, rfl, rfl, rfl⟩

end

/-! ### Squeeze, walk and restore -/

/-- The floor of a record is at most its requested value (R1). -/
theorem State.GrantsWithinTerms.floor_le {s : State} (h : s.GrantsWithinTerms) {i : RecIdx} {u : Terms} (e : (s.life i).terms? = some u) :
    u.floor ≤ u.requested :=
  ((h i).1 u e).1

theorem Lowers.passed {s t : State} {l : List RecIdx} (h : Lowers s l t) : s.GrantsWithinTerms → Passed s t [] := by
  induction h with
  | ended s => exact Passed.refl
  | lowered hj stages _ ih =>
    intro within
    have one := stages.passed within hj le_rfl (within.floor_le (congrArg Life.terms? hj))
    exact one.trans (ih (one.grantsWithinTerms within))

theorem Squeezes.passed {s t : State} {u : Terms} (h : Squeezes s u t) (within : s.GrantsWithinTerms) : Passed s t [] := by
  cases h with
  | otherClass _ => exact .refl within
  | roomComes _ => exact .refl within
  | tooLittle _ _ _ => exact .refl within
  | lowers _ _ _ _ _ _ _ lowers => exact lowers.passed within

/-- A walk admits some of the entries it walks, in their order (R41 to R43). -/
theorem Walks.passed {s t : State} {l : List RecIdx} {stop : Bool} (h : Walks s l t stop) :
    s.GrantsWithinTerms → ∃ k, k.Sublist l ∧ Passed s t k := by
  induction h with
  | ended s => exact fun within => ⟨[], .slnil, .refl within⟩
  | admitted hi _ _ fits admits _ ih =>
    intro within
    have floor := le_min (within.floor_le (congrArg Life.terms? hi)) ((le_max_left _ _).trans fits)
    have one := admits.passed within hi floor (min_le_left _ _)
    obtain ⟨k, sub, rest⟩ := ih (one.grantsWithinTerms within)
    exact ⟨_ :: k, sub.cons_cons _, one.trans rest⟩
  | stopped _ _ _ _ waits squeezes =>
    intro within
    have one := WaitForBudget.passed within waits
    exact ⟨[], List.nil_sublist _, one.trans (squeezes.passed (one.grantsWithinTerms within))⟩
  | _ hi _ _ ih => -- `Walks.over`, whose name is a token of Mathlib's
    intro within
    obtain ⟨k, sub, rest⟩ := ih ((passed_over within hi _).grantsWithinTerms within)
    exact ⟨k, sub.cons _, (passed_over within hi _).trans rest⟩

theorem Restores.passed {s t : State} {l : List RecIdx} (h : Restores s l t) : s.GrantsWithinTerms → Passed s t [] := by
  induction h with
  | ended s => exact Passed.refl
  | left _ _ _ _ ih => exact ih
  | raised hj _ _ stages _ ih =>
    intro within
    obtain ⟨floor, requested⟩ := (within _).2 _ _ hj
    have one := stages.passed within hj (by omega) (by omega)
    exact one.trans (ih (one.grantsWithinTerms within))

/-! ### The pass -/

theorem State.ListsExact.passReady {s : State} (lists : s.ListsExact) (within : s.GrantsWithinTerms) : PassReady s := by
  obtain ⟨-, -, nodup, granted⟩ := lists
  exact ⟨fun i u e => ((within i).1 u e).2, nodup, fun i hi => (granted i).mp hi⟩

/-- The records of the wait queue are WAITING (R35). -/
theorem State.ListsExact.waiting {s : State} (lists : s.ListsExact) : ∀ i ∈ s.alloc.waitQueue, ∃ u r, s.life i = .waiting u r := by
  obtain ⟨-, ⟨-, waiting, -⟩, -⟩ := lists
  intro i hi
  have := (waiting i).mp hi
  cases e : s.life i with
  | waiting u r => exact ⟨u, r, rfl⟩
  | _ => simp [e, Life.isWaiting] at this

/-- A whole pass outside reclaiming: its walk, its restore, and what the two together make of the records and the lists (R40). -/
theorem State.pass_outcome (s : State) (outside : s.alloc.reclaiming = false) (lists : s.ListsExact) (within : s.GrantsWithinTerms) :
    ∃ (m : State) (stop : Bool) (l : List RecIdx),
      Walks { s with alloc := { s.alloc with passDue := false } } s.alloc.waitQueue m stop ∧ (stop = true → s.pass = m) ∧
      (stop = false → ∃ order, (∀ i, i ∈ order ↔ i ∈ m.alloc.grantOrder) ∧ order.Pairwise m.RaiseFirst ∧ Restores m order s.pass) ∧
      l.Sublist s.alloc.waitQueue ∧ Passed s s.pass l := by
  obtain ⟨m, stop, walks, stopped, restored⟩ := s.passes lists.2.1.1 lists.waiting (lists.passReady within) outside
  have begun : Passed s { s with alloc := { s.alloc with passDue := false } } [] :=
    .of_lives (fun i => within.passed_self i List.not_mem_nil) rfl rfl id rfl
  obtain ⟨l, sub, walked⟩ := walks.passed within
  have toWalked : Passed s m l := begun.trans walked
  refine ⟨m, stop, l, walks, stopped, restored, sub, ?_⟩
  cases stop with
  | true =>
    rw [stopped rfl]
    exact toWalked
  | false =>
    obtain ⟨order, -, -, restores⟩ := restored rfl
    have whole := toWalked.trans (restores.passed (toWalked.grantsWithinTerms within))
    rwa [List.append_nil] at whole

end Sys2Proof.Machine

open Sys2Proof Sys2Proof.Machine

/-- Settles O36: the walk and the restore are composed of steps each of which keeps every grant within its record's terms. -/
theorem admissionPassOutcome : Obligations.AdmissionPassOutcome := by
  intro s
  refine ⟨exec_admissionPass_notDue s, exec_admissionPass_drops s, fun due running outside lists within => ?_⟩
  obtain ⟨m, stop, l, walks, stopped, restored, sub, passed⟩ := s.pass_outcome outside lists within
  have quiet := quiet_pass s
  exact ⟨m, s.pass, stop, l, exec_admissionPass_runs s due running outside, walks, stopped, restored, passed.lives, sub,
    passed.grantOrder, passed.waitQueue, quiet.freeList, quiet.opState.trans running, passed.reclaiming outside, quiet.effCeiling,
    quiet.timer, quiet.sampler, quiet.thermal, quiet.clock, quiet.link, quiet.params, quiet.reply, quiet.closeWindowLeft, passed.bays⟩

end

section
/-!
A pass over one WAITING record (O37): it is passed over, it is admitted, or it stops the walk.
-/
set_option Elab.async false

namespace Sys2Proof.Machine

/-! ### One queue entry -/

/-- The condition of R41 that holds first is the one the model finds. -/
theorem State.PassesOver.passOver_eq {s : State} {b : BayIdx} {r : WaitReason} (h : s.PassesOver b r) : s.passOver b = some r := by
  unfold State.passOver
  rcases h with ⟨blocked, rfl⟩ | ⟨free, calibrating, rfl⟩ | ⟨free, idle, shut, rfl⟩ | ⟨free, idle, opened, limit, rfl⟩
  · simp [blocked]
  · simp [free, calibrating]
  · simp [free, idle, shut]
  · simp [free, idle, opened, limit]

theorem State.Admissible.passOver_eq {s : State} {b : BayIdx} (h : s.Admissible b) : s.passOver b = none := by
  obtain ⟨free, idle, opened, limit⟩ := h
  unfold State.passOver
  simp [free, idle, opened, limit]

/-- A WAITING record takes a wait reason (R37). -/
theorem State.setWaitReason_waiting (s : State) {i : RecIdx} {u : Terms} {r : WaitReason} (h : s.life i = .waiting u r) (r' : WaitReason) :
    s.setWaitReason i r' = s.setLife i (.waiting u r') := by
  unfold State.setWaitReason
  rw [h]
  rfl

section
variable (s : State) {i : RecIdx} {u : Terms} {r : WaitReason}

theorem State.walk_over (hi : s.life i = .waiting u r) {r' : WaitReason} (passes : s.PassesOver u.bay r') :
    State.walk [i] s = (s.setLife i (.waiting u r'), false) := by
  simp only [State.walk, hi, passes.passOver_eq, s.setWaitReason_waiting hi]

theorem State.walk_admits (hi : s.life i = .waiting u r) (free : s.Admissible u.bay) (fits : u.need ≤ s.room u) :
    State.walk [i] s = (s.admission i u (min u.requested (s.room u)), false) := by
  simp only [State.walk, hi, free.passOver_eq, if_pos fits]

theorem State.walk_stops (hi : s.life i = .waiting u r) (free : s.Admissible u.bay) (short : s.room u < u.need) :
    State.walk [i] s = ((s.setLife i (.waiting u .budget)).squeeze u, true) := by
  simp only [State.walk, hi, free.passOver_eq, if_neg short.not_ge, List.foldl_cons, List.foldl_nil, s.setWaitReason_waiting hi]

end

/-- A room of the terms is the model's (R34). -/
theorem IsRoom.room_eq {s : State} {u : Terms} {n : Nat} (h : IsRoom s.alloc.effCeiling s.load u n) : s.room u = n := by
  obtain ⟨p, on, -⟩ := h.2
  exact (isRoom_roomUnder _ u _ ⟨p, on⟩).eq h

/-! ### The pass after its walk -/

/-- A pass whose walk goes through ends with the restore (R42). -/
theorem State.pass_of_walked {s m : State} {l : List RecIdx} (queue : s.alloc.waitQueue = l)
    (walked : State.walk l { s with alloc := { s.alloc with passDue := false } } = (m, false)) : s.pass = m.restore := by
  subst queue
  unfold State.pass
  dsimp only at walked ⊢
  rw [walked]
  rfl

/-- A pass whose walk stops ends with it (R42). -/
theorem State.pass_of_stopped {s m : State} {l : List RecIdx} (queue : s.alloc.waitQueue = l)
    (walked : State.walk l { s with alloc := { s.alloc with passDue := false } } = (m, true)) : s.pass = m := by
  subst queue
  unfold State.pass
  dsimp only at walked ⊢
  rw [walked]
  rfl

/-- A record with nothing to raise, or no room for it, is left by the restore (R49). -/
theorem State.restoreOne_stands (s : State) {j : RecIdx} {v : Terms} {g : Grant} (hj : s.life j = .granted v g)
    (h : min (v.requested - g.staged) (s.room v) = 0) : s.restoreOne j = s := by
  simp only [State.restoreOne, hj, h, if_true]

/-- A restore that leaves every record of the grant order list changes nothing (R49). -/
theorem State.restore_stands (s : State) (h : ∀ j ∈ s.alloc.grantOrder, s.restoreOne j = s) : s.restore = s := by
  have key : ∀ l : List RecIdx, (∀ j ∈ l, s.restoreOne j = s) → l.foldl State.restoreOne s = s := by
    intro l
    induction l with
    | nil => exact fun _ => rfl
    | cons j rest ih =>
      intro stands
      rw [List.foldl_cons, stands j List.mem_cons_self]
      exact ih fun k hk => stands k (List.mem_cons_of_mem j hk)
  exact key _ fun j hj => h j ((s.mem_restoreOrder j).mp hj)

/-! ### The GRANTED records hold what they requested -/

/-- Every record of the grant order list holds the grant it requested. -/
def State.AllFull (s : State) : Prop :=
  ∀ j ∈ s.alloc.grantOrder, ∃ v g, s.life j = .granted v g ∧ g.staged = v.requested

theorem State.restoreOne_full (s : State) {j : RecIdx} {v : Terms} {g : Grant} (hj : s.life j = .granted v g)
    (full : g.staged = v.requested) : s.restoreOne j = s :=
  s.restoreOne_stands hj (by rw [full, Nat.sub_self, Nat.zero_min])

/-- A WAITING record is not among them. -/
theorem State.AllFull.ne {s : State} (h : s.AllFull) {i j : RecIdx} {u : Terms} {r : WaitReason} (hi : s.life i = .waiting u r)
    (hj : j ∈ s.alloc.grantOrder) : j ≠ i := by
  rintro rfl
  obtain ⟨v, g, granted, -⟩ := h j hj
  rw [hi] at granted
  cases granted

/-- With nothing to raise, the restore of a pass that passes its one record over changes nothing. -/
theorem State.AllFull.pass_over {s : State} (full : s.AllFull) {i : RecIdx} {u : Terms} {r r' : WaitReason}
    (queue : s.alloc.waitQueue = [i]) (hi : s.life i = .waiting u r) (passes : s.PassesOver u.bay r') :
    s.pass = { s.setLife i (.waiting u r') with alloc := { s.alloc with passDue := false } } := by
  refine (State.pass_of_walked queue (State.walk_over { s with alloc := { s.alloc with passDue := false } } hi passes)).trans
    (State.restore_stands _ fun j hj => ?_)
  obtain ⟨v, g, granted, staged⟩ := full j hj
  refine State.restoreOne_full _ ?_ staged
  exact (State.life_setLife _ i _ j).trans ((if_neg (full.ne hi hj)).trans granted)

/-- A record admitted into all its room, or with all it requested, has nothing left to be raised by (R43, R49). -/
theorem Admits.restoreOne_stands {s t : State} {i : RecIdx} {u : Terms} {room : Nat}
    (h : Admits s t i u (min u.requested room)) (isRoom : IsRoom s.alloc.effCeiling s.load u room) : t.restoreOne i = t := by
  refine t.restoreOne_stands h.life ?_
  obtain ⟨p, on, eq⟩ := isRoom.2
  have left : t.room u ≤ t.alloc.effCeiling - t.load p := roomUnder_le _ u _ p on
  have ceiling : t.alloc.effCeiling = s.alloc.effCeiling := by rw [h.frame]
  rw [h.loads p, if_pos on, ceiling] at left
  dsimp only
  omega

/-- With nothing else to raise, the restore of a pass that admits its one record changes nothing. -/
theorem State.AllFull.pass_admits {s : State} (full : s.AllFull) {i : RecIdx} {u : Terms} {r : WaitReason} {room : Nat}
    (outside : s.alloc.reclaiming = false) (queue : s.alloc.waitQueue = [i]) (hi : s.life i = .waiting u r) (free : s.Admissible u.bay)
    (isRoom : IsRoom s.alloc.effCeiling s.load u room) (fits : u.need ≤ room) :
    Admits { s with alloc := { s.alloc with passDue := false } } s.pass i u (min u.requested room) := by
  have room_eq : State.room { s with alloc := { s.alloc with passDue := false } } u = room := isRoom.room_eq
  have walked := State.walk_admits { s with alloc := { s.alloc with passDue := false } } hi free (fits.trans_eq room_eq.symm)
  rw [room_eq] at walked
  have admits := State.admits { s with alloc := { s.alloc with passDue := false } } i u r (min u.requested room) hi outside
  rw [State.pass_of_walked queue walked, State.restore_stands]
  · exact admits
  · intro j hj
    rw [admits.frame] at hj
    rcases List.mem_append.mp hj with old | new
    · obtain ⟨v, g, granted, staged⟩ := full j old
      exact State.restoreOne_full _ ((admits.otherLives j (full.ne hi old)).trans granted) staged
    · rw [List.mem_singleton.mp new]
      exact admits.restoreOne_stands isRoom

/-! ### A squeeze that lowers nothing -/

/-- No squeeze for a class outside the squeeze classes, nor without a candidate (R45). -/
theorem State.squeeze_stands (s : State) (u : Terms)
    (h : s.params.squeezeClasses.getLsbD u.cls.val = false ∨
      ∀ j ∈ s.alloc.grantOrder, ∀ v g, s.life j = .granted v g → u.cls ≤ v.cls ∨ g.staged ≤ v.floor) : s.squeeze u = s := by
  unfold State.squeeze
  rcases h with other | settled
  · exact if_pos other
  · have empty : s.candidates u = [] := by
      refine List.filter_eq_nil_iff.mpr fun j hj => ?_
      cases e : s.life j with
      | granted v g =>
        rcases settled j ((s.mem_victims j).mp hj) v g e with cls | staged
        · simp [cls.not_gt]
        · simp [staged.not_gt]
      | _ => simp
    rw [empty]
    split
    · rfl
    · split
      · rfl
      · rfl

/-- A pass stopped by its one record, and no candidate to lower (R42, R45). -/
theorem State.AllFull.pass_stops {s : State} (full : s.AllFull) {i : RecIdx} {u : Terms} {r : WaitReason} {room : Nat}
    (queue : s.alloc.waitQueue = [i]) (hi : s.life i = .waiting u r) (free : s.Admissible u.bay)
    (isRoom : IsRoom s.alloc.effCeiling s.load u room) (short : room < u.need)
    (settled : s.params.squeezeClasses.getLsbD u.cls.val = false ∨
      ∀ j ∈ s.alloc.grantOrder, ∀ v g, s.life j = .granted v g → u.cls ≤ v.cls ∨ g.staged ≤ v.floor) :
    s.pass = { s.setLife i (.waiting u .budget) with alloc := { s.alloc with passDue := false } } := by
  have room_eq : State.room { s with alloc := { s.alloc with passDue := false } } u = room := isRoom.room_eq
  refine (State.pass_of_stopped queue
    (State.walk_stops { s with alloc := { s.alloc with passDue := false } } hi free (room_eq.trans_lt short))).trans
    (State.squeeze_stands _ u (settled.imp_right fun h j hj v g granted => h j hj v g ?_))
  exact ((State.life_setLife _ i _ j).trans (if_neg (full.ne hi hj))).symm.trans granted

end Sys2Proof.Machine

open Sys2Proof Sys2Proof.Machine

/-- Settles O37: the walk of a queue of one entry, and a restore and a squeeze that find nothing to do. -/
theorem loneRecordOutcome : Obligations.LoneRecordOutcome := by
  refine ⟨fun s i u r r' due running outside queue full hi passes => ?_,
    fun s i u r room due running outside queue full hi cause idle opened limit below reached =>
      ⟨fun short settled => ?_, fun fits => ?_⟩⟩
  · rw [exec_admissionPass_runs s due running outside, State.AllFull.pass_over full queue hi passes]
  · rw [exec_admissionPass_runs s due running outside,
      State.AllFull.pass_stops full queue hi ⟨cause, idle, opened, limit⟩ ⟨below, reached⟩ short settled]
  · have admits := State.AllFull.pass_admits full outside queue hi ⟨cause, idle, opened, limit⟩ ⟨below, reached⟩ fits
    refine ⟨s.pass, exec_admissionPass_runs s due running outside, admits.life, admits.otherLives, admits.loads, ?_, ?_, admits.bay,
      admits.otherBays, admits.bayFlag, admits.window⟩
    · rw [admits.frame, queue]
      simp
    · rw [admits.frame]

end

section
/-!
The squeeze and the restore of a lone GRANTED record (O38).
-/
set_option Elab.async false

namespace Sys2Proof.Machine

/-! ### The projected load -/

/-- What each record counts in the projected load of a position (R34, R46). -/
theorem State.projectedLoad_eq (s : State) (low : List RecIdx) (p : Position) : s.projectedLoad low p = ((List.finRange 48).map fun i =>
    match s.life i with
    | .granted u g => if u.onAt p then (if i ∈ low then u.floor else g.staged) else 0
    | .retiring u a _ _ => if u.onAt p then a else 0
    | _ => 0).sum := by
  refine congrArg List.sum (List.map_congr_left fun i _ => ?_)
  unfold State.projectedAt
  cases s.life i with
  | granted u g => simp only [List.contains_iff_mem]
  | _ => rfl

/-- A WAITING record counts nothing, whatever it waits for (R34). -/
theorem State.projectedLoad_setLife_waiting (s : State) {i : RecIdx} {u : Terms} {r : WaitReason} (hi : s.life i = .waiting u r)
    (r' : WaitReason) (low : List RecIdx) : (s.setLife i (.waiting u r')).projectedLoad low = s.projectedLoad low := by
  funext p
  refine congrArg List.sum (List.map_congr_left fun j _ => ?_)
  unfold State.projectedAt
  rw [State.life_setLife]
  by_cases hj : j = i
  · rw [if_pos hj, hj, hi]
  · rw [if_neg hj]

/-! ### One GRANTED record -/

/-- A list without repeats that holds one record and no other. -/
theorem eq_singleton_of_nodup {l : List RecIdx} {j : RecIdx} (distinct : l.Nodup) (only : ∀ k, k ∈ l ↔ k ∈ [j]) : l = [j] :=
  List.perm_singleton.mp ((List.perm_ext_iff_of_nodup distinct (List.nodup_singleton j)).mpr only)

theorem State.nodup_restoreOrder (s : State) (h : s.alloc.grantOrder.Nodup) : s.restoreOrder.Nodup := by
  refine (s.pairwise_restoreOrder h).imp fun {a b} before same => ?_
  subst same
  rcases before with cls | ⟨-, place⟩
  · exact lt_irrefl _ cls
  · exact lt_irrefl _ place

theorem State.victims_singleton (s : State) {j : RecIdx} (h : s.alloc.grantOrder = [j]) : s.victims = [j] :=
  eq_singleton_of_nodup (s.nodup_victims (by simp [h])) fun k => by rw [s.mem_victims, h]

theorem State.restore_singleton (s : State) {j : RecIdx} (h : s.alloc.grantOrder = [j]) : s.restore = s.restoreOne j := by
  have order : s.restoreOrder = [j] :=
    eq_singleton_of_nodup (s.nodup_restoreOrder (by simp [h])) fun k => by rw [s.mem_restoreOrder, h]
  unfold State.restore
  rw [order]
  rfl

/-- The lone GRANTED record is the one candidate of a squeeze (R45). -/
theorem State.candidates_singleton (s : State) {j : RecIdx} {u v : Terms} {g : Grant} (order : s.alloc.grantOrder = [j])
    (hj : s.life j = .granted v g) (lower : v.cls < u.cls) (above : v.floor < g.staged)
    (meets : ∃ p, u.onAt p = true ∧ v.onAt p = true) : s.candidates u = [j] := by
  obtain ⟨p, on⟩ := meets
  have meets : u.meets v = true := List.any_eq_true.mpr ⟨p, List.mem_finRange p, by simp [on.1, on.2]⟩
  unfold State.candidates
  rw [s.victims_singleton order, List.filter_singleton, hj]
  simp [lower, above, meets]

/-- A squeeze with one candidate lowers it to its floor when that, and nothing less, makes the record fit (R46). -/
theorem State.squeeze_singleton (s : State) {j : RecIdx} {u v : Terms} {g : Grant} {before after : Nat} (hj : s.life j = .granted v g)
    (squeezes : s.params.squeezeClasses.getLsbD u.cls.val = true) (candidates : s.candidates u = [j])
    (hbefore : s.projectedRoom [] u = before) (hafter : s.projectedRoom [j] u = after) :
    s.squeeze u = if before < u.need ∧ u.need ≤ after then (s.stage j v.floor).markStale j else s := by
  unfold State.squeeze
  rw [if_neg (by simp [squeezes]), candidates, hbefore]
  simp only [State.squeezeSet, List.nil_append, hafter]
  by_cases fitted : u.need ≤ before
  · rw [if_pos fitted, if_neg fun h => h.1.not_ge fitted]
  · by_cases fits : u.need ≤ after
    · rw [if_neg fitted, if_pos fits, if_pos ⟨Nat.lt_of_not_le fitted, fits⟩]
      simp only [List.foldl_cons, List.foldl_nil, State.lowerToFloor, hj]
    · rw [if_neg fitted, if_neg fits, if_neg fun h => fits h.2]

/-- A room against the projected load is the model's (R34). -/
theorem IsRoom.projectedRoom_eq {s : State} {low : List RecIdx} {u : Terms} {n : Nat}
    (h : IsRoom s.alloc.effCeiling (s.projectedLoad low) u n) : s.projectedRoom low u = n := by
  obtain ⟨p, on, -⟩ := h.2
  exact (isRoom_roomUnder _ u _ ⟨p, on⟩).eq h

/-- A record raised by what it lacks or by its room (R49). -/
theorem State.restoreOne_raises (s : State) {j : RecIdx} {v : Terms} {g : Grant} {room : Nat} (hj : s.life j = .granted v g)
    (hroom : s.room v = room) (up : 0 < min (v.requested - g.staged) room) :
    Stages s (s.restoreOne j) j v g (g.staged + min (v.requested - g.staged) room) := by
  have e : s.restoreOne j = (s.stage j (g.staged + min (v.requested - g.staged) room)).markStale j := by
    simp only [State.restoreOne, hj, hroom, if_neg up.ne']
  rw [e]
  exact s.stages j v g _ hj

/-! ### The squeeze for a lone WAITING record -/

/-- What a pass with one WAITING record `i` that does not fit and one candidate `j` comes to (R42, R45, R46). -/
structure LoneSqueeze (s t : State) (i j : RecIdx) (u v : Terms) (g : Grant) (staged : Nat) : Prop where
  waits : t.life i = .waiting u .budget
  waitQueue : t.alloc.waitQueue = s.alloc.waitQueue
  grantOrder : t.alloc.grantOrder = s.alloc.grantOrder
  candidate : t.life j = .granted v { g with staged := staged }
  otherLives : ∀ k, k ≠ i → k ≠ j → t.life k = s.life k
  bays : t.bays = s.bays

/-- A squeeze of a record that has been told to wait. -/
theorem State.loneSqueeze (s : State) {i j : RecIdx} {u v : Terms} {r : WaitReason} {g : Grant} {before after : Nat}
    (hi : s.life i = .waiting u r) (hj : s.life j = .granted v g) (order : s.alloc.grantOrder = [j])
    (hbefore : IsRoom s.alloc.effCeiling (s.projectedLoad []) u before)
    (hafter : IsRoom s.alloc.effCeiling (s.projectedLoad [j]) u after)
    (squeezes : s.params.squeezeClasses.getLsbD u.cls.val = true) (lower : v.cls < u.cls) (above : v.floor < g.staged)
    (meets : ∃ p, u.onAt p = true ∧ v.onAt p = true) :
    LoneSqueeze s ((s.setLife i (.waiting u .budget)).squeeze u) i j u v g
      (if before < u.need ∧ u.need ≤ after then v.floor else g.staged) := by
  have ne : j ≠ i := by
    rintro rfl
    rw [hi] at hj
    cases hj
  have lives : ∀ k, (s.setLife i (.waiting u .budget)).life k = if k = i then .waiting u .budget else s.life k :=
    s.life_setLife i _
  have self : (s.setLife i (.waiting u .budget)).life i = .waiting u .budget := by rw [lives, if_pos rfl]
  have others : ∀ k, k ≠ i → (s.setLife i (.waiting u .budget)).life k = s.life k := fun k hk => by rw [lives, if_neg hk]
  have granted := (others j ne).trans hj
  rw [← s.projectedLoad_setLife_waiting hi .budget] at hbefore hafter
  rw [State.squeeze_singleton _ granted squeezes (State.candidates_singleton _ order granted lower above meets)
    (IsRoom.projectedRoom_eq hbefore) (IsRoom.projectedRoom_eq hafter)]
  by_cases fits : before < u.need ∧ u.need ≤ after
  · rw [if_pos fits, if_pos fits]
    have stages := State.stages _ j v g v.floor granted
    exact ⟨(stages.otherLives i ne.symm).trans self, by rw [stages.frame]; rfl, by rw [stages.frame]; rfl, stages.life,
      fun k hk hkj => (stages.otherLives k hkj).trans (others k hk), by rw [stages.frame]; rfl⟩
  · rw [if_neg fits, if_neg fits]
    exact ⟨self, rfl, rfl, granted, fun k hk _ => others k hk, rfl⟩

/-- The pass that comes to it. -/
theorem State.pass_loneSqueeze (s : State) {i j : RecIdx} {u v : Terms} {r : WaitReason} {g : Grant} {room before after : Nat}
    (queue : s.alloc.waitQueue = [i]) (order : s.alloc.grantOrder = [j]) (hi : s.life i = .waiting u r) (hj : s.life j = .granted v g)
    (free : s.Admissible u.bay) (isRoom : IsRoom s.alloc.effCeiling s.load u room) (short : room < u.need)
    (hbefore : IsRoom s.alloc.effCeiling (s.projectedLoad []) u before)
    (hafter : IsRoom s.alloc.effCeiling (s.projectedLoad [j]) u after)
    (squeezes : s.params.squeezeClasses.getLsbD u.cls.val = true) (lower : v.cls < u.cls) (above : v.floor < g.staged)
    (meets : ∃ p, u.onAt p = true ∧ v.onAt p = true) :
    LoneSqueeze s s.pass i j u v g (if before < u.need ∧ u.need ≤ after then v.floor else g.staged) := by
  have room_eq : State.room { s with alloc := { s.alloc with passDue := false } } u = room := isRoom.room_eq
  rw [State.pass_of_stopped queue
    (State.walk_stops { s with alloc := { s.alloc with passDue := false } } hi free (room_eq.trans_lt short))]
  obtain ⟨waits, waitQueue, grantOrder, candidate, others, bays⟩ :=
    State.loneSqueeze { s with alloc := { s.alloc with passDue := false } } hi hj order hbefore hafter squeezes lower above meets
  exact ⟨waits, waitQueue, grantOrder, candidate, others, bays⟩

/-! ### The restore of a lone GRANTED record -/

/-- A pass with an empty wait queue is the restore of the grant order list (R40, R49). -/
theorem State.pass_restores (s : State) {j : RecIdx} (queue : s.alloc.waitQueue = []) (order : s.alloc.grantOrder = [j]) :
    s.pass = State.restoreOne { s with alloc := { s.alloc with passDue := false } } j :=
  (State.pass_of_walked queue rfl).trans (State.restore_singleton _ order)

end Sys2Proof.Machine

open Sys2Proof Sys2Proof.Machine

/-- Settles O38: the projected load by its definition, a pass that stops with one candidate, and a pass that only restores. -/
theorem squeezeAndRestore : Obligations.SqueezeAndRestore := by
  refine ⟨State.projectedLoad_eq, ?_, ?_⟩
  · intro s i j u v r g room before after due running outside queue order hi hj cause idle opened limit isRoom short hbefore hafter
      squeezes lower above meets
    have outcome := s.pass_loneSqueeze queue order hi hj ⟨cause, idle, opened, limit⟩ isRoom short hbefore hafter squeezes lower above
      meets
    exact ⟨s.pass, exec_admissionPass_runs s due running outside, outcome.waits, outcome.waitQueue.trans queue,
      outcome.grantOrder.trans order, outcome.candidate, outcome.otherLives, outcome.bays⟩
  · intro s j v g room due running outside queue order hj isRoom up
    have room_eq : State.room { s with alloc := { s.alloc with passDue := false } } v = room := isRoom.room_eq
    rw [exec_admissionPass_runs s due running outside, s.pass_restores queue order]
    refine ⟨fun nothing => ?_, fun raised => ?_⟩
    · refine congrArg _ (State.restoreOne_stands { s with alloc := { s.alloc with passDue := false } } hj ?_)
      rw [room_eq]
      exact nothing
    · have stages := State.restoreOne_raises { s with alloc := { s.alloc with passDue := false } } hj room_eq raised
      exact ⟨_, rfl, stages.life, stages.otherLives, stages.loads, by rw [stages.frame], by rw [stages.frame]; exact order,
        stages.window⟩

end
